-- ==== Sys2Proof/Word.lean ====
section
/-! DEFINITION. The value types of rule R9 (00_scope.md): every value of the block is unsigned. -/

namespace Sys2Proof

/-- A data byte, `DATA_BITS = 8` wide (00 R6, R9). -/
abbrev Byte := BitVec 8

/-- A logical address, `ADDR_BITS = 16` wide (00 R6, R9). -/
abbrev Addr := BitVec 16

/-- An operation word, 32 bits (00 R9, 30 R80). -/
abbrev Word := BitVec 32

end Sys2Proof
end

