-- ==== Sys2Proof/Syntax.lean ====
section
/-! DEFINITION. The operations (30 R83: one constructor per row of spec/opcode_table.json). -/

namespace Sys2Proof

/-- An operation of the block. The operand types are exactly the encoding's fields (30 R81, R84), so every term is a
well-formed operation. -/
inductive Instr where
  /-- `CFG_WRITE`, source `configure_for_write()` (41 R130) -/
  | cfgWrite
  /-- `CFG_READ`, source `configure_for_read()` (41 R131) -/
  | cfgRead
  /-- `WRITE a, d`, source `write(address, data)` (41 R132) -/
  | write (addr : Addr) (data : Byte)
  /-- `READ a`, source `read(address)` (41 R133) -/
  | read (addr : Addr)
  /-- `UNLOCK`, source `unlock()` (42 R152) -/
  | unlock
  /-- `LOCK`, source `lock()` (42 R153) -/
  | lock
  /-- `ERASE`, source `erase()` (42 R154) -/
  | erase
  /-- `DELAY_MS n`, the spec's addition (42 R158) -/
  | delayMs (ms : BitVec 16)
  deriving DecidableEq, Repr

end Sys2Proof
end

