-- ==== Sys2Proof/Decode.lean ====
section
/-! DEFINITION. The decoder of rule R85 (30_encoding.md), total on 32-bit words, and the encoder of rules R81 and R88. A word
that spells no operation (R86) decodes to `none`, the spec's `Illegal`. -/

namespace Sys2Proof

/-- `w[31:28]`, the operation code (30 R81). -/
def opcField (w : Word) : BitVec 4 := w.extractLsb' 28 4

/-- `w[27:24]`, reserved, must be zero (30 R81). -/
def rsvField (w : Word) : BitVec 4 := w.extractLsb' 24 4

/-- `w[31:24]`, the operation code and the reserved field together, as rule R85 tests them. -/
def headField (w : Word) : BitVec 8 := w.extractLsb' 24 8

/-- `w[23:8]`, the address or the millisecond count (30 R81). -/
def imm16Field (w : Word) : BitVec 16 := w.extractLsb' 8 16

/-- `w[7:0]`, the data byte (30 R81). -/
def dataField (w : Word) : BitVec 8 := w.extractLsb' 0 8

/-- The decoder, the chain of tests of rule R85 in its order; `none` is `Illegal`. -/
def decode (w : Word) : Option Instr :=
  if w = 0x10000000#32 then some .cfgWrite
  else if w = 0x20000000#32 then some .cfgRead
  else if headField w = 0x30#8 then some (.write (imm16Field w) (dataField w))
  else if headField w = 0x40#8 ∧ dataField w = 0x00#8 then some (.read (imm16Field w))
  else if w = 0x50000000#32 then some .unlock
  else if w = 0x60000000#32 then some .lock
  else if w = 0x70000000#32 then some .erase
  else if headField w = 0x80#8 ∧ dataField w = 0x00#8 then some (.delayMs (imm16Field w))
  else none

/-- The operation code of each operation (30 R83). -/
def opcodeOf : Instr → BitVec 4
  | .cfgWrite => 0x1#4
  | .cfgRead => 0x2#4
  | .write _ _ => 0x3#4
  | .read _ => 0x4#4
  | .unlock => 0x5#4
  | .lock => 0x6#4
  | .erase => 0x7#4
  | .delayMs _ => 0x8#4

/-- The `IMM16` field of each operation's word, zero where its format marks it zero (30 R82). -/
def imm16Of : Instr → BitVec 16
  | .cfgWrite => 0
  | .cfgRead => 0
  | .write a _ => a
  | .read a => a
  | .unlock => 0
  | .lock => 0
  | .erase => 0
  | .delayMs n => n

/-- The `DATA` field of each operation's word, zero where its format marks it zero (30 R82). -/
def dataOf : Instr → Byte
  | .cfgWrite => 0
  | .cfgRead => 0
  | .write _ d => d
  | .read _ => 0
  | .unlock => 0
  | .lock => 0
  | .erase => 0
  | .delayMs _ => 0

/-- A word from its fields: `w = {OPC[3:0], 0000, IMM16[15:0], DATA[7:0]}` (30 R88). -/
def packWord (opc : BitVec 4) (imm : BitVec 16) (data : Byte) : Word :=
  opc ++ 0#4 ++ imm ++ data

/-- The operation word of an operation (30 R81, R88). -/
def encode (i : Instr) : Word :=
  packWord (opcodeOf i) (imm16Of i) (dataOf i)

/-- The instruction this decoder reads from the word `w` of spec/opcode_table.json: one 32-bit word, handed over whole
(20 R55), its bits above `nbits` zero. -/
def decodeTableWord (nbits w : Nat) : Option Instr :=
  decode (BitVec.ofNat 32 (w % 2 ^ nbits))

end Sys2Proof
end

