-- ==== Sys2Proof/Config.lean ====
section
/-! DEFINITION. The implementation parameters of rule R6 (00_scope.md), their defaults, and the free values of
rule R10 (`draw()`, `choose(X, Y)`). The parameters are fixed when the block is constructed (70 R203). -/

namespace Sys2Proof

/-- What an address at or above `DEV_SIZE` does (00 R6 `OOR_POLICY`, 20 R51): `fault`, or `aliased` (the spec's `Alias`). -/
inductive OorPolicy where
  | fault
  | aliased
  deriving DecidableEq, Repr

/-- The level that means "asserted" on a control line (00 R6 `POL_*`, 40 R102). -/
inductive Polarity where
  | activeHigh
  | activeLow
  deriving DecidableEq, Repr

/-- The device's protection state after `ERASE` (00 R6 `SDP_AFTER_ERASE`, 20 R59). -/
inductive SdpAfterErase where
  | unchanged
  | draw
  deriving DecidableEq, Repr

/-- One pin group of the data port: it carries bits `lo + width - 1 : lo` of the byte (00 R6 `DATA_GROUPS`, 40 R101). -/
structure DataGroup where
  lo : Nat
  width : Nat
  deriving DecidableEq, Repr

/-- One physical pin of the controller: a port number and a bit of that port (40 R100, R101). -/
structure Pin where
  port : Nat
  bit : Nat
  deriving DecidableEq, Repr, Inhabited

/-- The physical pin of each of the twelve lines (00 R6 `PIN_MAP`, 40 R100): data line `D[i]` is `data[i]`. -/
structure PinMap where
  data : Vector Pin 8
  we : Pin
  re : Pin
  lem : Pin
  lel : Pin
  deriving DecidableEq, Repr, Inhabited

/-- A command sequence: (address, data) pairs, first pair first (42 R151). -/
abbrev CommandList := List (Addr × Byte)

/-- The parameters of rule R6, under the rule's names. `ADDR_BITS` and `DATA_BITS` are the types `Addr` and `Byte`. -/
structure Config where
  /-- `DEV_SIZE` -/
  devSize : Nat
  /-- `OOR_POLICY` -/
  oorPolicy : OorPolicy
  /-- `READ_SETTLE_NOPS` -/
  readSettleNops : Nat
  /-- `READ_SETTLE_REQ`: used only by the premise of 70 R216 -/
  readSettleReq : Nat
  /-- `F_CLK`, in Hz: no rule of the step depends on it (00 R8) -/
  fClk : Nat
  /-- `T_ERASE_MS` -/
  tEraseMs : Nat
  /-- `T_UNLOCK_MS` -/
  tUnlockMs : Nat
  /-- `T_LOCK_MS` -/
  tLockMs : Nat
  /-- `CMD_A` -/
  cmdA : Addr
  /-- `CMD_B` -/
  cmdB : Addr
  /-- `SEQ_UNLOCK` -/
  seqUnlock : CommandList
  /-- `SEQ_LOCK` -/
  seqLock : CommandList
  /-- `SEQ_ERASE` -/
  seqErase : CommandList
  /-- `POL_WE` -/
  polWe : Polarity
  /-- `POL_RE` -/
  polRe : Polarity
  /-- `POL_LEM` -/
  polLem : Polarity
  /-- `POL_LEL` -/
  polLel : Polarity
  /-- `DATA_GROUPS`, low bits first -/
  dataGroups : List DataGroup
  /-- `PIN_MAP` -/
  pinMap : PinMap
  /-- `CMD_PREFIX_GUARD` -/
  cmdPrefixGuard : Bool
  /-- `STRICT_WRITE_CYCLE` -/
  strictWriteCycle : Bool
  /-- `T_WC_MS` -/
  tWcMs : Nat
  /-- `SDP_AFTER_ERASE` -/
  sdpAfterErase : SdpAfterErase
  deriving DecidableEq, Repr

/-- The free byte number `n` of a run: rule R10's `draw()`. No body: every value is a possible outcome. DESIGN CHOICE (log
entry 9). -/
opaque Config.freeByte : Nat → Byte

/-- The free choice number `n` of a run: rule R10's `choose(X, Y)` takes `X` when it is `true`. No body.
DESIGN CHOICE (log entry 9). -/
opaque Config.freeChoice : Nat → Bool

/-- `READ_SETTLE_REQ` has no value in the source and no default in rule R6: an open constant, no body. DESIGN CHOICE (log
entry 1), safe. -/
opaque Config.openReadSettleReq : Nat

/-- `F_CLK` has no value in the source and no default in rule R6: an open constant, no body. DESIGN CHOICE (log entry 1), safe. -/
opaque Config.openFClk : Nat

/-- `PIN_MAP` has no value in the source and no default in rule R6: an open constant, no body. DESIGN CHOICE (log entry 1),
safe. -/
opaque Config.openPinMap : PinMap

/-- The parameters at the defaults of rule R6 (and, for the three lists, of 42 R151). -/
def Config.default : Config where
  devSize := 8192
  oorPolicy := .fault
  readSettleNops := 2
  readSettleReq := Config.openReadSettleReq
  fClk := Config.openFClk
  tEraseMs := 20
  tUnlockMs := 10
  tLockMs := 10
  cmdA := 0x1555#16
  cmdB := 0x0AAA#16
  seqUnlock :=
    [(0x1555#16, 0xAA#8), (0x0AAA#16, 0x55#8), (0x1555#16, 0x80#8),
     (0x1555#16, 0xAA#8), (0x0AAA#16, 0x55#8), (0x1555#16, 0x20#8)]
  seqLock := [(0x1555#16, 0xAA#8), (0x0AAA#16, 0x55#8), (0x1555#16, 0xA0#8)]
  seqErase :=
    [(0x1555#16, 0xAA#8), (0x0AAA#16, 0x55#8), (0x1555#16, 0x80#8),
     (0x1555#16, 0xAA#8), (0x0AAA#16, 0x55#8), (0x1555#16, 0x10#8)]
  polWe := .activeLow
  polRe := .activeLow
  polLem := .activeHigh
  polLel := .activeHigh
  dataGroups := [⟨0, 4⟩, ⟨4, 4⟩]
  pinMap := Config.openPinMap
  cmdPrefixGuard := true
  strictWriteCycle := false
  tWcMs := 10
  sdpAfterErase := .unchanged

end Sys2Proof
end

