-- ==== Sys2Proof/Machine/State.lean ====
section
/-! DEFINITION. The machine's state: the twenty elements of rule R21 (10_state.md), the parameters, and what the host's
interface needs the state to carry (the operation stream, the responses and the trace of the run, the draw counter). -/

namespace Sys2Proof.Machine

/-- `MODE`: which mode switch ran last (10 R23). -/
inductive Mode where
  | unconfigured
  | read
  | write
  deriving DecidableEq, Repr

/-- `FAULT`: the fault codes of 60 R171, in the order of their numbers 0 to 6. -/
inductive FaultCode where
  /-- 0 `NONE` -/
  | none
  /-- 1 `ILLEGAL_OP` -/
  | illegalOp
  /-- 2 `MODE_VIOLATION` -/
  | modeViolation
  /-- 3 `ADDRESS_OUT_OF_RANGE` -/
  | addressOutOfRange
  /-- 4 `DEVICE_BUSY` -/
  | deviceBusy
  /-- 5 `CMD_PREFIX` -/
  | cmdPrefix
  /-- 6 `PIN_CONTRACT` -/
  | pinContract
  deriving DecidableEq, Repr

/-- A direction: the spec's `In` and `Out` (10 R26, R28). -/
inductive Dir where
  | input
  | output
  deriving DecidableEq, Repr

/-- A logical output level (10 R29). -/
inductive Level where
  | deasserted
  | asserted
  deriving DecidableEq, Repr

/-- The four control lines (40 R100). -/
inductive Line where
  /-- write-enable `WE` -/
  | we
  /-- read-enable `RE` -/
  | re
  /-- the MSB-latch strobe `LEM` -/
  | lem
  /-- the LSB-latch strobe `LEL` -/
  | lel
  deriving DecidableEq, Repr

/-- `DIR_L` and `LVL_L` of one control line (10 R28, R29). -/
structure ControlLine where
  dir : Dir
  lvl : Level
  deriving DecidableEq, Repr

/-- The two address latches `M` and `L` (10 R31). -/
inductive LatchId where
  | msb
  | lsb
  deriving DecidableEq, Repr

/-- `DEV.SDP` when known (10 R34). -/
inductive Sdp where
  | isProtected
  | isUnprotected
  deriving DecidableEq, Repr

/-- The commands of the sequencer (20 R59). -/
inductive CommandName where
  | unlock
  | lock
  | erase
  deriving DecidableEq, Repr

/-- The pin events of 00 R11. -/
inductive PinEvent where
  /-- `DIR(L, x)` for a control line -/
  | dirLine (l : Line) (d : Dir)
  /-- `DIR(D, x)` -/
  | dirData (d : Dir)
  /-- `ASSERT(L)` -/
  | asserts (l : Line)
  /-- `DEASSERT(L)` -/
  | deasserts (l : Line)
  /-- `DRIVE(D, v)` -/
  | drive (v : Byte)
  /-- `SAMPLE(D) = v` -/
  | sample (v : Byte)
  /-- `NOP(n)` -/
  | nop (n : Nat)
  /-- `SLEEP_MS(n)` -/
  | sleepMs (n : Nat)
  deriving DecidableEq, Repr

/-- The reactions of the passive agents (00 R11). -/
inductive Reaction where
  /-- `[LATCH(x) = v]` -/
  | latch (x : LatchId) (v : Byte)
  /-- `[DEVADDR = a]` -/
  | devAddr (a : Nat)
  /-- `[DEVWRITE(a, v)]` -/
  | devWrite (a : Nat) (v : Byte)
  /-- `[DEVCMDWRITE(a, v)]` -/
  | devCmdWrite (a : Nat) (v : Byte)
  /-- `[DEVREAD(a) = v]` -/
  | devRead (a : Nat) (v : Byte)
  /-- `[DEVCMD(name)]` -/
  | devCmd (c : CommandName)
  deriving DecidableEq, Repr

/-- An entry of a trace: a pin event, or a reaction recorded in brackets in the same trace (00 R11). -/
inductive TraceItem where
  | event (e : PinEvent)
  | reaction (r : Reaction)
  deriving DecidableEq, Repr

/-- The response of an operation (10 R33). -/
inductive Response where
  | ok
  | data (v : Byte)
  | faulted (c : FaultCode)
  | refused
  deriving DecidableEq, Repr

/-- What the host can do to the block between two operations (70 R221): issue an operation word, or reset the controller. -/
inductive HostInput where
  | op (w : Word)
  | reset
  deriving DecidableEq, Repr

/-- The machine's state. -/
structure State where
  /-- the parameters of 00 R6, fixed at construction (70 R203) -/
  cfg : Config
  /-- the host's operation stream, the part not issued yet (10 R21, R22). DESIGN CHOICE (log entry 2), safe. -/
  pending : List HostInput
  /-- `OPC` (10 R22) -/
  opc : Nat
  /-- `MODE` (10 R23) -/
  mode : Mode
  /-- `FAULT` (10 R24) -/
  fault : FaultCode
  /-- `FAULT_OP` (10 R25) -/
  faultOp : Word
  /-- `FAULT_OPC` (10 R25) -/
  faultOpc : Nat
  /-- `DDIR` (10 R26) -/
  ddir : Dir
  /-- `DOUT` (10 R27) -/
  dout : Byte
  /-- `DIR_WE`, `LVL_WE` (10 R28, R29) -/
  we : ControlLine
  /-- `DIR_RE`, `LVL_RE` (10 R28, R29) -/
  re : ControlLine
  /-- `DIR_LEM`, `LVL_LEM` (10 R28, R29) -/
  lem : ControlLine
  /-- `DIR_LEL`, `LVL_LEL` (10 R28, R29) -/
  lel : ControlLine
  /-- `LATM` (10 R31); `none`: content unknown -/
  latM : Option Byte
  /-- `LATL` (10 R31); `none`: content unknown -/
  latL : Option Byte
  /-- `DEV.MEM` (10 R34): the known cells, addresses strictly rising; an unlisted address is the spec's `none`, unknown -/
  mem : List Host.Cell
  /-- `DEV.SDP` (10 R34); `none`: unknown -/
  sdp : Option Sdp
  /-- `DEV.BUSY` (10 R34, 20 R62) -/
  busy : Bool
  /-- the responses of the run so far (10 R33, 70 R220). DESIGN CHOICE (log entry 3), safe. -/
  responses : List Response
  /-- the trace of the run so far (00 R8, R11, 70 R220). DESIGN CHOICE (log entry 3), safe. -/
  trace : List TraceItem
  /-- how many free values the machine has used: the index of the next one (00 R10). DESIGN CHOICE (log entry 4), safe. -/
  draws : Nat
  deriving DecidableEq, Repr

/-- Why the machine stops for good. Each of these is a stuck state: the spec gives the case no meaning, and no run from
reset reaches one (log entry 8). -/
inductive Fault where
  /-- Raised by `writeCycle` and `readCycle` when a control line is not deasserted at entry, which 40 R115 and R116 require.
  SAFE: the machine stops where the spec gives no effect; it is reached from no state that satisfies the bus invariant. -/
  | lineNotIdle
  /-- Raised by `pEnable` on a line with `DIR_L = In`, against the contract of 40 R106. SAFE, as above. -/
  | enableUndriven
  /-- Raised by `pEnable` and `pCfgOutData` when two agents would drive the data lines, or `WE` and `RE` would be asserted
  together (10 R37; 93 U6: "a model composing primitives differently must `fault`"). SAFE, as above. -/
  | busContention
  /-- Raised by `writeCycle` and `pRead` when the device would take an address that the spec leaves undefined: a latch content
  is unknown (10 R32) or the latched address is out of range under `OOR_POLICY = Fault` (20 R51 "unreachable"). SAFE, as above. -/
  | deviceAddressUndefined
  deriving DecidableEq, Repr

/-- Why a step is not taken. -/
inductive Refusal where
  /-- Raised by an arm of `exec` for an operation that has no meaning yet. SAFE. No arm raises it now. -/
  | notModelled (mnemonic : String)
  /-- Raised by `step` when the host has issued no further operation: "The run ends after the response to the last operation
  the host issues" (70 R220). SAFE: the block has no step of its own. -/
  | noOperationIssued
  deriving DecidableEq, Repr

/-- The free level number `n`: rule R39's "either level (a draw at reset)". -/
def freeLevel (n : Nat) : Level :=
  if Config.freeChoice n then .asserted else .deasserted

/-- The machine after power-on of the whole board, which is a controller reset with the latches and the device unknown
(10 R39; 70 R200, R202). The five values the reset leaves unspecified are the free values 0 to 4. DESIGN CHOICE (log
entry 5), safe. -/
def State.reset : State where
  cfg := Config.default
  pending := []
  opc := 0
  mode := .unconfigured
  fault := .none
  faultOp := 0x00000000#32
  faultOpc := 0
  ddir := .input
  dout := Config.freeByte 0
  we := ⟨.input, freeLevel 1⟩
  re := ⟨.input, freeLevel 2⟩
  lem := ⟨.input, freeLevel 3⟩
  lel := ⟨.input, freeLevel 4⟩
  latM := none
  latL := none
  mem := []
  sdp := none
  busy := false
  responses := []
  trace := []
  draws := 5

end Sys2Proof.Machine
end

