-- ==== Sys2Proof/Machine/Operands.lean ====
section
/-! DEFINITION. The operand forms of the block. An operation's operands come only from its word (30 R84), unchanged: the only
computations are the slices of an address (20 R53), the latched address (10 R32), the device address (20 R51) and the bits a
data group carries (20 R54, 40 R104). -/

namespace Sys2Proof.Machine

/-- `a[15:8]`, the byte the MSB latch takes (20 R53). -/
def addrHigh (a : Addr) : Byte := a.extractLsb' 8 8

/-- `a[7:0]`, the byte the LSB latch takes (20 R53). -/
def addrLow (a : Addr) : Byte := a.extractLsb' 0 8

/-- `{h, l}` (00 R9). -/
def joinAddr (h l : Byte) : Addr := h ++ l

/-- `LA`, the latched address: defined when both latches are known (10 R32). -/
def State.latchedAddr (s : State) : Option Addr :=
  match s.latM, s.latL with
  | some h, some l => some (joinAddr h l)
  | _, _ => none

/-- `a >= DEV_SIZE`, the address read as a natural number (41 R140). -/
def outOfRange (c : Config) (a : Addr) : Bool := c.devSize ≤ a.toNat

/-- `devaddr(LA)` (20 R51); `none` is the case the rule calls unreachable. -/
def devaddr (c : Config) (a : Addr) : Option Nat :=
  if outOfRange c a then
    match c.oorPolicy with
    | .aliased => some (a.toNat % c.devSize)
    | .fault => none
  else some a.toNat

/-- The bits of byte `v` that data group `g` carries, `v[hi_g:lo_g]` (40 R104). -/
def groupBits (g : DataGroup) (v : Byte) : Nat := v.toNat / 2 ^ g.lo % 2 ^ g.width

/-- The byte whose groups read as `bits`, in the order of the groups: the concatenation by significance of 40 R105. -/
def joinGroups : List DataGroup → List Nat → Nat
  | g :: gs, b :: bs => b * 2 ^ g.lo + joinGroups gs bs
  | _, _ => 0

end Sys2Proof.Machine
end

