-- ==== Sys2Proof/Machine/Flags.lean ====
section
/-! DEFINITION. The block has no flags (10 R38). What it has in their place are the checks an operation makes before its first
event, in the order of 60 R172; each check names the fault it gives. The halt check and decoding come before these. -/

namespace Sys2Proof.Machine

/-- The first check that fails gives its fault; later checks are not made (60 R172). -/
def firstFault : List (Bool × FaultCode) → Option FaultCode
  | [] => none
  | (true, c) :: _ => some c
  | (false, _) :: rest => firstFault rest

/-- The mode check: the operation needs `MODE = m` (60 R179). -/
def modeCheck (m : Mode) (s : State) : Bool × FaultCode :=
  (s.mode != m, .modeViolation)

/-- The range check: `a >= DEV_SIZE` with `OOR_POLICY = Fault` (60 R180). -/
def rangeCheck (a : Addr) (s : State) : Bool × FaultCode :=
  (outOfRange s.cfg a && s.cfg.oorPolicy == .fault, .addressOutOfRange)

/-- The busy check, in strict mode only (60 R182). -/
def busyCheck (s : State) : Bool × FaultCode :=
  (s.cfg.strictWriteCycle && s.busy, .deviceBusy)

/-- `(a, d)` is the first pair of a command sequence (60 R181). -/
def isCommandHead (c : Config) (a : Addr) (d : Byte) : Bool :=
  c.seqUnlock.head? == some (a, d) || c.seqLock.head? == some (a, d) || c.seqErase.head? == some (a, d)

/-- The command-prefix check, with the guard on (60 R181). -/
def prefixCheck (a : Addr) (d : Byte) (s : State) : Bool × FaultCode :=
  (s.cfg.cmdPrefixGuard && isCommandHead s.cfg a d, .cmdPrefix)

/-- `CFG_WRITE`, `CFG_READ` and `DELAY_MS` make no check but the halt check (41 R130, R131; 42 R158). -/
def noChecks (_ : State) : Option FaultCode := none

/-- The checks of `WRITE a, d` (41 R132). -/
def writeChecks (a : Addr) (d : Byte) (s : State) : Option FaultCode :=
  firstFault [modeCheck .write s, rangeCheck a s, busyCheck s, prefixCheck a d s]

/-- The checks of `READ a` (41 R133). -/
def readChecks (a : Addr) (s : State) : Option FaultCode :=
  firstFault [modeCheck .read s, rangeCheck a s, busyCheck s]

/-- The checks of `UNLOCK`, `LOCK` and `ERASE` (42 R152 to R154). -/
def commandChecks (s : State) : Option FaultCode :=
  firstFault [modeCheck .write s, busyCheck s]

end Sys2Proof.Machine
end

