-- ==== Sys2Proof/Machine/Memory.lean ====
section
/-! DEFINITION. The device's byte cells `DEV.MEM` (10 R34) as a list of (address, byte) in one canonical form: addresses strictly
rising. An address that is not listed is the spec's `none`: the model does not know the cell's content (20 R61). Since a listed
cell always holds a known byte, no entry equals what an unlisted address reads as. -/

namespace Sys2Proof.Machine

/-- `DEV.MEM[a]`: `some v` when the cell is known, `none` when it is not (10 R34). -/
def Memory.read (a : Nat) : List Host.Cell → Option Byte
  | [] => none
  | (b, v) :: m => if a = b then some v else Memory.read a m

/-- `DEV.MEM[a] <- some v`, keeping the addresses strictly rising. -/
def Memory.write (a : Nat) (v : Byte) : List Host.Cell → List Host.Cell
  | [] => [(a, v)]
  | (b, x) :: m =>
    if a < b then (a, v) :: (b, x) :: m
    else if a = b then (a, v) :: m
    else (b, x) :: Memory.write a v m

/-- `n` cells holding `v` from address `a` up. -/
def Memory.fillFrom (a : Nat) (v : Byte) : Nat → List Host.Cell
  | 0 => []
  | n + 1 => (a, v) :: Memory.fillFrom (a + 1) v n

/-- Every cell `0 .. n - 1` holds `v`. -/
def Memory.fill (n : Nat) (v : Byte) : List Host.Cell := Memory.fillFrom 0 v n

/-- The canonical form: every address is at least `a`, and the addresses rise strictly. -/
def Memory.wfFrom (a : Nat) : List Host.Cell → Bool
  | [] => true
  | (b, _) :: m => a ≤ b && Memory.wfFrom (b + 1) m

/-- The canonical form of `DEV.MEM`. -/
def Memory.wf (m : List Host.Cell) : Bool := Memory.wfFrom 0 m

/-- Every listed cell exists: its address is below `n` (10 R34: `a < DEV_SIZE`). -/
def Memory.below (n : Nat) (m : List Host.Cell) : Bool := m.all fun c => c.1 < n

end Sys2Proof.Machine
end

