-- ==== Sys2Proof/Machine/Ops.lean ====
section
/-! DEFINITION. The shared operations over the state: trace and response, free values, raising a fault (60 R174), completing an
operation (10 R22), the frame every operation runs in (60 R172 to R175), and the controller reset (70 R200, R202), which is the
only return from a fault (60 R176). -/

namespace Sys2Proof.Machine

/-- `emit(e)`: append pin event `e` to the trace (00 R10). -/
def State.emit (e : PinEvent) (s : State) : State :=
  { s with trace := s.trace ++ [.event e] }

/-- Record a reaction of a passive agent in the same trace (00 R11). -/
def State.react (r : Reaction) (s : State) : State :=
  { s with trace := s.trace ++ [.reaction r] }

/-- The response of the operation (10 R33). -/
def State.respond (r : Response) (s : State) : State :=
  { s with responses := s.responses ++ [r] }

/-- `S.DDIR <- d` (10 R26). -/
def State.setDdir (d : Dir) (s : State) : State := { s with ddir := d }

/-- `S.DOUT <- v` (10 R27). -/
def State.setDout (v : Byte) (s : State) : State := { s with dout := v }

/-- `DIR_L` and `LVL_L` of one control line (10 R28, R29). -/
def State.line (s : State) : Line → ControlLine
  | .we => s.we
  | .re => s.re
  | .lem => s.lem
  | .lel => s.lel

/-- Write `DIR_L` and `LVL_L` of one control line. -/
def State.setLine (l : Line) (c : ControlLine) (s : State) : State :=
  match l with
  | .we => { s with we := c }
  | .re => { s with re := c }
  | .lem => { s with lem := c }
  | .lel => { s with lel := c }

/-- `S.LATx <- v` (10 R31). -/
def State.setLatch (x : LatchId) (v : Option Byte) (s : State) : State :=
  match x with
  | .msb => { s with latM := v }
  | .lsb => { s with latL := v }

/-- `S.MODE <- m` (10 R23). -/
def State.setMode (m : Mode) (s : State) : State := { s with mode := m }

/-- One free value has been used. -/
def State.advanceDraws (s : State) : State := { s with draws := s.draws + 1 }

/-- `draw()`: the next free byte (00 R10). -/
def State.drawnByte (s : State) : Byte := Config.freeByte s.draws

/-- `choose(X, Y)`: whether the next free choice takes `X` (00 R10). -/
def State.chosen (s : State) : Bool := Config.freeChoice s.draws

/-- The number of a fault code (60 R171). -/
def FaultCode.number : FaultCode → Nat
  | .none => 0
  | .illegalOp => 1
  | .modeViolation => 2
  | .addressOutOfRange => 3
  | .deviceBusy => 4
  | .cmdPrefix => 5
  | .pinContract => 6

/-- The number of a mode (10 R23). -/
def Mode.number : Mode → Nat
  | .unconfigured => 0
  | .read => 1
  | .write => 2

/-- `raise Fault(code)` for operation word `w` (60 R174): the fault is recorded with the word and `OPC`, the response is
`Faulted(code)`, and nothing else changes. -/
def raiseFault (code : FaultCode) (w : Word) (s : State) : State :=
  { s with
    fault := code
    faultOp := w
    faultOpc := s.opc
    responses := s.responses ++ [.faulted code] }

/-- An operation that completes: `pc <- S.OPC + 1; respond r` (10 R22, R33). -/
def complete (r : Response) (s : State) : State :=
  { s with
    opc := s.opc + 1
    responses := s.responses ++ [r] }

/-- How a piece of an operation ends: it is done, it raised a fault of the spec, or it is stuck (see `Fault`). -/
inductive Micro (α : Type) where
  | done (a : α) (s : State)
  | raised (c : FaultCode) (s : State)
  | stuck (f : Fault)
  deriving Repr

/-- Go on with `k` when `m` is done. -/
def Micro.andThen {α β : Type} (m : Micro α) (k : α → State → Micro β) : Micro β :=
  match m with
  | .done a s => k a s
  | .raised c s => .raised c s
  | .stuck f => .stuck f

/-- The operation with word `w` once its checks have passed. A fault raised inside it keeps what it had done so far
(60 R173: only `PIN_CONTRACT` could be). DEDUCED (log entry 18), safe. -/
def finish (w : Word) : Micro Response → Host.Outcome State Fault Refusal
  | .done r s => .next (complete r s)
  | .raised c s => .next (raiseFault c w s)
  | .stuck f => .fault f

/-- The frame of every operation (60 R172): the halt check (60 R175: respond `Refused` and change nothing else), then the
operation's own checks, then its body. -/
def operation (w : Word) (checks : State → Option FaultCode) (body : State → Micro Response) (s : State) :
    Host.Outcome State Fault Refusal :=
  if s.fault ≠ .none then .next (s.respond .refused)
  else
    match checks s with
    | some c => .next (raiseFault c w s)
    | none => finish w (body s)

/-- A word that decodes to `Illegal`: the halt check, then `ILLEGAL_OP` (30 R85, 60 R178). -/
def execIllegal (w : Word) (s : State) : Host.Outcome State Fault Refusal :=
  operation w (fun _ => some .illegalOp) (fun s => .done .ok s) s

/-- A controller reset (70 R200): every block register to its value of 10 R39, the five unspecified ones to the next free
values; the latches and the device, `DEV.BUSY` included, keep their state (70 R202; 10 R34; 20 R61, R62; log entry 6). It emits no
event and gives no response (70 R200, R221); a new run begins (70 R220). -/
def controllerReset (s : State) : State :=
  { s with
    opc := 0
    mode := .unconfigured
    fault := .none
    faultOp := 0x00000000#32
    faultOpc := 0
    ddir := .input
    dout := Config.freeByte s.draws
    we := ⟨.input, freeLevel (s.draws + 1)⟩
    re := ⟨.input, freeLevel (s.draws + 2)⟩
    lem := ⟨.input, freeLevel (s.draws + 3)⟩
    lel := ⟨.input, freeLevel (s.draws + 4)⟩
    responses := []
    trace := []
    draws := s.draws + 5 }

end Sys2Proof.Machine
end

