-- ==== Sys2Proof/Machine/Device.lean ====
section
/-! DEFINITION. The reference device of the spec (20_memory.md rules R56 to R62): its answer to a read cycle, its reaction to a
write cycle, and a command applied after its settle delay. -/

namespace Sys2Proof.Machine

/-- The address the device sees: `devaddr(LA)` (20 R51); `none` when the spec leaves it undefined (10 R32, 20 R51). -/
def State.deviceAddr (s : State) : Option Nat :=
  match s.latchedAddr with
  | some la => devaddr s.cfg la
  | none => none

/-- The byte of `MemRead(a, 1)` (20 R56): the cell, or a draw when the model does not know it. -/
def memReadByte (a : Nat) (s : State) : Byte :=
  match Memory.read a s.mem with
  | some v => v
  | none => s.drawnByte

/-- The state after `MemRead(a, 1)` (20 R56): no device state changes; a draw has been used if the cell was unknown. -/
def memReadState (a : Nat) (s : State) : State :=
  match Memory.read a s.mem with
  | some _ => s
  | none => s.advanceDraws

/-- The cells after a data write (20 R57): stored on an unprotected device, kept on a protected one, and a free choice of the two
when the protection state is unknown. -/
def memAfterWrite (a : Nat) (v : Byte) (s : State) : List Host.Cell :=
  match s.sdp with
  | some .isUnprotected => Memory.write a v s.mem
  | some .isProtected => s.mem
  | none => if s.chosen then Memory.write a v s.mem else s.mem

/-- The draw counter after a data write: a free choice has been used when the protection state is unknown. -/
def drawsAfterWrite (s : State) : Nat :=
  match s.sdp with
  | some _ => s.draws
  | none => s.draws + 1

/-- `MemWrite(a, 1, v)` (20 R57); in strict mode it begins the device's write cycle (20 R62). -/
def memWrite (a : Nat) (v : Byte) (s : State) : State :=
  { s with
    mem := memAfterWrite a v s
    busy := s.cfg.strictWriteCycle || s.busy
    draws := drawsAfterWrite s }

/-- The protection state after `ERASE` (20 R59 `SDP_AFTER_ERASE`): as it was, or a free choice of the two known states. -/
def sdpAfterErase (s : State) : Option Sdp :=
  match s.cfg.sdpAfterErase with
  | .unchanged => s.sdp
  | .draw => if s.chosen then some .isProtected else some .isUnprotected

/-- The draw counter after `ERASE`. -/
def drawsAfterErase (s : State) : Nat :=
  match s.cfg.sdpAfterErase with
  | .unchanged => s.draws
  | .draw => s.draws + 1

/-- `ERASE` applied by the device (20 R59): every cell becomes `0xFF`, whatever `DEV.SDP` is (20 R60). -/
def eraseDevice (s : State) : State :=
  { s with
    mem := Memory.fill s.cfg.devSize 0xFF#8
    sdp := sdpAfterErase s
    busy := false
    draws := drawsAfterErase s }

/-- The protection state set by `UNLOCK` or `LOCK` (20 R59). -/
def setProtection (p : Sdp) (s : State) : State :=
  { s with sdp := some p, busy := false }

/-- `DevCommand(cmd)` (20 R59): the effect of the command; then the device is not busy. -/
def devCommand (c : CommandName) (s : State) : State :=
  match c with
  | .unlock => setProtection .isUnprotected s
  | .lock => setProtection .isProtected s
  | .erase => eraseDevice s

/-- `DELAY_MS n` ends a data write's busy time in strict mode when `n >= T_WC_MS` (20 R62, 42 R158). -/
def endWriteCycle (n : Nat) (s : State) : State :=
  { s with busy := if s.cfg.strictWriteCycle ∧ s.cfg.tWcMs ≤ n then false else s.busy }

end Sys2Proof.Machine
end

