-- ==== Sys2Proof/Machine/Pins.lean ====
section
/-! DEFINITION. The Pin Abstraction Layer (40_pin_and_latch.md rules R100 to R109): the pin primitives, the physical levels
behind the logical ones, and the physical sub-events behind a data-port event. -/

namespace Sys2Proof.Machine

/-- The line is an output and asserted: what a device at its end sees as active. An undriven line is held idle by the board
(70 R206; log entry 13, unsafe). -/
def ControlLine.active (c : ControlLine) : Bool := c.dir == .output && c.lvl == .asserted

/-- Two agents drive the data lines, or `WE` and `RE` are asserted together: what 10 R37 excludes. -/
def State.contention (s : State) : Bool :=
  s.re.active && (s.ddir == .output || s.we.active)

/-- A primitive that has put the pins into contention is stuck (93 U6). -/
def checkContention (s : State) : Micro Unit :=
  if s.contention then .stuck .busContention else .done () s

/-- `P_CFG_OUT(L)` (40 R103): the level does not change. -/
def pCfgOutLine (l : Line) (s : State) : State :=
  (s.setLine l { s.line l with dir := .output }).emit (.dirLine l .output)

/-- `P_CFG_IN(L)` (40 R103). No operation uses it. -/
def pCfgInLine (l : Line) (s : State) : State :=
  (s.setLine l { s.line l with dir := .input }).emit (.dirLine l .input)

/-- `P_CFG_OUT(D)` (40 R103): afterwards the lines carry `DOUT`. -/
def pCfgOutData (s : State) : Micro Unit :=
  checkContention ((s.setDdir .output).emit (.dirData .output))

/-- `P_CFG_IN(D)` (40 R103). -/
def pCfgInData (s : State) : State :=
  (s.setDdir .input).emit (.dirData .input)

/-- `P_WRITE(D, v)` (40 R104): requires the data port to be an output. -/
def pWrite (v : Byte) (s : State) : Micro Unit :=
  match s.ddir with
  | .output => .done () ((s.setDout v).emit (.drive v))
  | .input => .raised .pinContract s

/-- `P_ENABLE(L)` (40 R106): its contract is that the line is an output. -/
def pEnable (l : Line) (s : State) : Micro Unit :=
  match (s.line l).dir with
  | .output => checkContention ((s.setLine l { s.line l with lvl := .asserted }).emit (.asserts l))
  | .input => .stuck .enableUndriven

/-- `P_DISABLE(L)` (40 R106): may also be called on an undriven line. The reactions at the end of a pulse are
made by `captureLatch` and `deviceWrite`, which the cycles call; a mode switch causes none (41 R130). DEDUCED (log entry 12),
unsafe. -/
def pDisable (l : Line) (s : State) : State :=
  (s.setLine l { s.line l with lvl := .deasserted }).emit (.deasserts l)

/-- `NOP(n)` (40 R108). -/
def nop (n : Nat) (s : State) : State := s.emit (.nop n)

/-- `SLEEP_MS(n)` (40 R109). -/
def sleepMs (n : Nat) (s : State) : State := s.emit (.sleepMs n)

/-- The device drives the data lines: `RE` asserted and `WE` deasserted (40 R118). -/
def State.deviceDrives (s : State) : Bool := s.re.active && !s.we.active

/-- `P_READ(D)` (40 R105): requires the data port to be an input. The lines carry the device's byte while it drives them
(40 R118), and a draw while no one does (40 R119). -/
def pRead (s : State) : Micro Byte :=
  match s.ddir with
  | .output => .raised .pinContract s
  | .input =>
    if s.deviceDrives then
      match s.deviceAddr with
      | some a =>
        let v := memReadByte a s
        .done v (((memReadState a s).emit (.sample v)).react (.devRead a v))
      | none => .stuck .deviceAddressUndefined
    else .done s.drawnByte (s.advanceDraws.emit (.sample s.drawnByte))

/-- The polarity parameter of a control line (00 R6). -/
def polarityOf (c : Config) : Line → Polarity
  | .we => c.polWe
  | .re => c.polRe
  | .lem => c.polLem
  | .lel => c.polLel

/-- `phys(L)` (40 R102): the physical level of a driven control line, `true` for 1; `none` while the line is undriven (high
impedance). -/
def State.phys (s : State) (l : Line) : Option Bool :=
  match (s.line l).dir with
  | .output => some (((s.line l).lvl == .asserted) == (polarityOf s.cfg l == .activeHigh))
  | .input => none

/-- The physical level the controller drives onto data line `D[i]`: bit `i` of `DOUT`, or nothing (10 R26, 20 R54). -/
def State.physData (s : State) (i : Fin 8) : Option Bool :=
  match s.ddir with
  | .output => some (s.dout.getLsbD i)
  | .input => none

/-- The physical pin of a control line (00 R6 `PIN_MAP`). -/
def pinOf (m : PinMap) : Line → Pin
  | .we => m.we
  | .re => m.re
  | .lem => m.lem
  | .lel => m.lel

/-- The levels the controller drives, pin by pin: `D[0]` to `D[7]`, then `WE`, `RE`, `LEM`, `LEL` (40 R100, R102). -/
def State.drivenPins (s : State) : List (Pin × Option Bool) :=
  (List.finRange 8).map (fun i => (s.cfg.pinMap.data[i], s.physData i)) ++
    [Line.we, Line.re, Line.lem, Line.lel].map fun l => (pinOf s.cfg.pinMap l, s.phys l)

/-- A physical sub-event of a data-port event, on one data group (00 R11). -/
inductive PortEvent where
  /-- `PORTDIR(g, x)` -/
  | portDir (g : DataGroup) (d : Dir)
  /-- `PORTWRITE(g, bits)` -/
  | portWrite (g : DataGroup) (bits : Nat)
  /-- `PORTREAD(g) = bits` -/
  | portRead (g : DataGroup) (bits : Nat)
  deriving DecidableEq, Repr

/-- The sub-events of a pin event, one per data group in the order of `DATA_GROUPS` (00 R11, 40 R103 to R105); a control line's
event and a delay have none. -/
def subEvents (c : Config) : PinEvent → List PortEvent
  | .dirData d => c.dataGroups.map fun g => .portDir g d
  | .drive v => c.dataGroups.map fun g => .portWrite g (groupBits g v)
  | .sample v => c.dataGroups.map fun g => .portRead g (groupBits g v)
  | .dirLine _ _ => []
  | .asserts _ => []
  | .deasserts _ => []
  | .nop _ => []
  | .sleepMs _ => []

end Sys2Proof.Machine
end

