-- ==== Sys2Proof/Machine/Cycles.lean ====
section
/-! DEFINITION. The Address Latch (40_pin_and_latch.md rules R110 to R114) and the two bus cycles (R115, R116). -/

namespace Sys2Proof.Machine

/-- The strobe line of a latch (40 R110). -/
def strobeLine : LatchId → Line
  | .msb => .lem
  | .lsb => .lel

/-- What a latch captures at the closing edge of its strobe pulse (40 R110): the byte on the lines, or unknown content when the
lines float. -/
def captureLatch (x : LatchId) (s : State) : State :=
  match s.ddir with
  | .output => (s.setLatch x (some s.dout)).react (.latch x s.dout)
  | .input => s.setLatch x none

/-- A strobe pulse: `ASSERT(LEx)`, `DEASSERT(LEx)`, capture (40 R110). Nothing happens between its two events, so the data lines
are the same throughout (DEDUCED, log entry 11, safe). -/
def strobe (x : LatchId) (s : State) : Micro Unit :=
  (pEnable (strobeLine x) s).andThen fun _ s => .done () (captureLatch x (pDisable (strobeLine x) s))

/-- `LATCH_BYTE(x, b)` (40 R112). -/
def latchByte (x : LatchId) (b : Byte) (s : State) : Micro Unit :=
  (pWrite b s).andThen fun _ s => strobe x s

/-- `LATCH_ADDR(a)` (40 R113): MSB first, then LSB. -/
def latchAddr (a : Addr) (s : State) : Micro Unit :=
  (latchByte .msb (addrHigh a) s).andThen fun _ s => latchByte .lsb (addrLow a) s

/-- Whether a write cycle is a data write or one of a command sequence (40 R115). -/
inductive CycleKind where
  | data
  | command
  deriving DecidableEq, Repr

/-- "every `LVL_L = Deasserted`", what both cycles require (40 R115, R116). -/
def State.linesDeasserted (s : State) : Bool :=
  s.we.lvl == .deasserted && s.re.lvl == .deasserted && s.lem.lvl == .deasserted && s.lel.lvl == .deasserted

/-- The device's reaction at `DEASSERT(WE)` to the byte on the lines (40 R115, R117): a data write cycle, or a command cycle,
which changes no cell (20 R58). -/
def deviceWrite (kind : CycleKind) (da : Nat) (s : State) : State :=
  match kind with
  | .data => memWrite da s.dout (s.react (.devWrite da s.dout))
  | .command => s.react (.devCmdWrite da s.dout)

/-- `WRITE_CYCLE(a, d, kind)` (40 R115): the device takes its address at `ASSERT(WE)` and its byte at `DEASSERT(WE)`. -/
def writeCycle (a : Addr) (d : Byte) (kind : CycleKind) (s : State) : Micro Unit :=
  if s.linesDeasserted then
    (latchAddr a s).andThen fun _ s =>
      (pEnable .we s).andThen fun _ s =>
        match s.deviceAddr with
        | some da =>
          (pWrite d (s.react (.devAddr da))).andThen fun _ s => .done () (deviceWrite kind da (pDisable .we s))
        | none => .stuck .deviceAddressUndefined
  else .stuck .lineNotIdle

/-- `READ_CYCLE(a)` (40 R116). -/
def readCycle (a : Addr) (s : State) : Micro Byte :=
  if s.linesDeasserted then
    (pCfgOutData s).andThen fun _ s =>
      (latchAddr a s).andThen fun _ s =>
        (pEnable .re (pCfgInData s)).andThen fun _ s =>
          (pRead (nop s.cfg.readSettleNops s)).andThen fun v s => .done v (pDisable .re s)
  else .stuck .lineNotIdle

end Sys2Proof.Machine
end

