-- ==== Sys2Proof/Machine/BusDriver.lean ====
section
/-! DEFINITION. The meanings of the Bus Driver operations (41_bus_driver.md): `CFG_WRITE`, `CFG_READ`, `WRITE`, `READ`. -/

namespace Sys2Proof.Machine

/-- One control line of a mode switch: `P_DISABLE(L); P_CFG_OUT(L)`, level before direction (41 R130). -/
def idleLine (l : Line) (s : State) : State := pCfgOutLine l (pDisable l s)

/-- The control lines of a mode switch, in the order `WE`, `RE`, `LEM`, `LEL` (41 R130, R131). -/
def idleLines (s : State) : State :=
  idleLine .lel (idleLine .lem (idleLine .re (idleLine .we s)))

/-- `CFG_WRITE` (41 R130). -/
def execCfgWrite (s : State) : Host.Outcome State Fault Refusal :=
  operation (encode .cfgWrite) noChecks
    (fun s => (pCfgOutData (idleLines s)).andThen fun _ s => .done .ok (s.setMode .write)) s

/-- `CFG_READ` (41 R131). -/
def execCfgRead (s : State) : Host.Outcome State Fault Refusal :=
  operation (encode .cfgRead) noChecks
    (fun s => .done .ok ((pCfgInData (idleLines s)).setMode .read)) s

/-- `WRITE a, d` (41 R132). -/
def execWrite (a : Addr) (d : Byte) (s : State) : Host.Outcome State Fault Refusal :=
  operation (encode (.write a d)) (writeChecks a d)
    (fun s => (writeCycle a d .data s).andThen fun _ s => .done .ok s) s

/-- `READ a` (41 R133). -/
def execRead (a : Addr) (s : State) : Host.Outcome State Fault Refusal :=
  operation (encode (.read a)) (readChecks a)
    (fun s => (readCycle a s).andThen fun v s => .done (.data v) s) s

end Sys2Proof.Machine
end

