-- ==== Sys2Proof/Machine/Sequencer.lean ====
section
/-! DEFINITION. The meanings of the Command Sequencer operations (42_command_sequencer.md): `UNLOCK`, `LOCK`, `ERASE`, and of
`DELAY_MS`. -/

namespace Sys2Proof.Machine

/-- The pairs of a command sequence, in list order, each a complete command cycle (42 R150, R155). -/
def issuePairs : CommandList → State → Micro Unit
  | [], s => .done () s
  | (a, d) :: l, s => (writeCycle a d .command s).andThen fun _ s => issuePairs l s

/-- `ISSUE_SEQUENCE(cmd, L, T)` (42 R150): the pairs, the settle delay, then the device applies the command. -/
def issueSequence (c : CommandName) (l : CommandList) (t : Nat) (s : State) : Micro Response :=
  (issuePairs l s).andThen fun _ s => .done .ok (devCommand c ((sleepMs t s).react (.devCmd c)))

/-- `UNLOCK` (42 R152). -/
def execUnlock (s : State) : Host.Outcome State Fault Refusal :=
  operation (encode .unlock) commandChecks
    (fun s => issueSequence .unlock s.cfg.seqUnlock s.cfg.tUnlockMs s) s

/-- `LOCK` (42 R153). -/
def execLock (s : State) : Host.Outcome State Fault Refusal :=
  operation (encode .lock) commandChecks
    (fun s => issueSequence .lock s.cfg.seqLock s.cfg.tLockMs s) s

/-- `ERASE` (42 R154). -/
def execErase (s : State) : Host.Outcome State Fault Refusal :=
  operation (encode .erase) commandChecks
    (fun s => issueSequence .erase s.cfg.seqErase s.cfg.tEraseMs s) s

/-- `DELAY_MS n` (42 R158). -/
def execDelayMs (n : BitVec 16) (s : State) : Host.Outcome State Fault Refusal :=
  operation (encode (.delayMs n)) noChecks
    (fun s => .done .ok (endWriteCycle n.toNat (sleepMs n.toNat s))) s

end Sys2Proof.Machine
end

