-- ==== Sys2Proof/Machine/Dispatch.lean ====
section
/-! DEFINITION. The dispatch: one arm per operation. -/

namespace Sys2Proof.Machine

def exec (i : Instr) (s : State) : Host.Outcome State Fault Refusal :=
  match i with
  | .cfgWrite => Sys2Proof.Machine.execCfgWrite s
  | .cfgRead => Sys2Proof.Machine.execCfgRead s
  | .write a d => Sys2Proof.Machine.execWrite a d s
  | .read a => Sys2Proof.Machine.execRead a s
  | .unlock => Sys2Proof.Machine.execUnlock s
  | .lock => Sys2Proof.Machine.execLock s
  | .erase => Sys2Proof.Machine.execErase s
  | .delayMs n => Sys2Proof.Machine.execDelayMs n s

end Sys2Proof.Machine
end

