-- ==== Sys2Proof/Machine/Issue.lean ====
section
/-! DEFINITION. What the block does with the host's next input (70 R221): an operation word is decoded and executed, a controller
reset resets the block. -/

namespace Sys2Proof.Machine

/-- One operation word (30 R85): the operation it spells, or `Illegal`. -/
def issueWord (w : Word) (s : State) : Host.Outcome State Fault Refusal :=
  match decode w with
  | some i => exec i s
  | none => execIllegal w s

/-- The host's next input, applied to the state without it. -/
def acceptInput (x : HostInput) (s : State) : Host.Outcome State Fault Refusal :=
  match x with
  | .op w => issueWord w s
  | .reset => .next (controllerReset s)

/-- The host puts one more operation word in front of what it has still to issue. -/
def issueNext (w : Word) (s : State) : State :=
  { s with pending := .op w :: s.pending }

end Sys2Proof.Machine
end

