-- ==== Sys2Proof/Machine/Step.lean ====
section
/-! DEFINITION. The step: the block executes the host's next operation entirely (00 R8). -/

namespace Sys2Proof.Machine

/-- One step: take the host's next input off the stream and apply it. When the host has issued nothing more, the run has ended
(70 R220) and no step is taken. -/
def step (s : State) : Host.Outcome State Fault Refusal :=
  match s.pending with
  | [] => .refused .noOperationIssued
  | x :: rest => acceptInput x { s with pending := rest }

/-- `s` with the operation word `w` (its bits above `nbits` zero) as the very next one of the host's stream.
DESIGN CHOICE (log entry 7), safe. -/
def State.withFetchWord (s : State) (nbits w : Nat) : State :=
  issueNext (BitVec.ofNat 32 (w % 2 ^ nbits)) s

end Sys2Proof.Machine
end

