-- ==== Sys2Proof/WellFormed.lean ====
section
/-! DEFINITION. What a well-formed configuration is (the conditions after the table of 00 R6, and those of 40 R101). An
`Instr` carries its own well-formedness in the types of its fields; what a well-formed assembler line is stands in
Machine/Asm.lean. -/

namespace Sys2Proof

/-- `DEV_SIZE` is a power of two with `1 <= DEV_SIZE <= 65536` (00 R6). -/
def Config.devSizeOk (c : Config) : Bool :=
  (List.range 17).any fun k => c.devSize == 2 ^ k

/-- `CMD_A != CMD_B`, both below `DEV_SIZE` (00 R6). -/
def Config.commandAddrsOk (c : Config) : Bool :=
  c.cmdA != c.cmdB && c.cmdA.toNat < c.devSize && c.cmdB.toNat < c.devSize

/-- A command list is not empty and every address of it is `CMD_A` or `CMD_B` (00 R6). -/
def Config.commandListOk (c : Config) (l : CommandList) : Bool :=
  !l.isEmpty && l.all fun p => p.1 == c.cmdA || p.1 == c.cmdB

/-- No two of the three command lists are equal (00 R6). -/
def Config.commandListsDiffer (c : Config) : Bool :=
  c.seqUnlock != c.seqLock && c.seqUnlock != c.seqErase && c.seqLock != c.seqErase

/-- The settle delays meet their lower bounds (00 R6, 90 C5). -/
def Config.settleDelaysOk (c : Config) : Bool :=
  20 ≤ c.tEraseMs && 10 ≤ c.tUnlockMs && 10 ≤ c.tLockMs

/-- The groups, low bits first, start at bit `lo`, follow one another without gap or overlap, are each 1 to 8 bits wide,
and end at bit 8 (40 R101: "widths summing to 8, bit positions disjoint"). -/
def groupsFrom (lo : Nat) : List DataGroup → Bool
  | [] => lo == 8
  | g :: gs => g.lo == lo && 1 ≤ g.width && g.width ≤ 8 && groupsFrom (lo + g.width) gs

/-- `DATA_GROUPS` has at least two groups that make up the byte (40 R101), listed low bits first (00 R6). DEDUCED (log entry 17),
safe. -/
def Config.dataGroupsOk (c : Config) : Bool :=
  2 ≤ c.dataGroups.length && groupsFrom 0 c.dataGroups

/-- The conditions rule R6 puts on the parameters, and rule R101 on `DATA_GROUPS`. -/
def Config.wellFormed (c : Config) : Bool :=
  c.devSizeOk && c.commandAddrsOk && c.commandListOk c.seqUnlock && c.commandListOk c.seqLock &&
    c.commandListOk c.seqErase && c.commandListsDiffer && c.settleDelaysOk && c.dataGroupsOk

/-- The twelve pins of a pin map: `D[0]` to `D[7]`, then `WE`, `RE`, `LEM`, `LEL`. -/
def PinMap.pins (m : PinMap) : List Pin :=
  m.data.toList ++ [m.we, m.re, m.lem, m.lel]

/-- "`PIN_MAP` must give the twelve lines twelve distinct physical pins" (40 R101). The lines of one data group are a slice of
one physical port (40 R101). A premise on the construction: `PIN_MAP` is OPEN. DESIGN CHOICE (log entry 17), safe. -/
def Config.pinMapOk (c : Config) : Bool :=
  c.pinMap.pins.Nodup &&
    c.dataGroups.all fun g =>
      (((c.pinMap.data.toList.drop g.lo).take g.width).map Pin.port).eraseDups.length ≤ 1

/-- The part of the premise `TimingOK` (70 R216, R217) that the parameters can express: rows T5 and T7. The other rows have no
value in any parameter (log entry 16). -/
def Config.timingOk (c : Config) : Bool :=
  c.readSettleReq ≤ c.readSettleNops && c.settleDelaysOk

end Sys2Proof
end

