-- ==== Sys2Proof/Machine/Asm.lean ====
section
/-! DEFINITION. The assembler of 30_encoding.md: its lines and when they are well formed (R88, R89), the text of a line (R88),
the expansion of the pseudo-instructions (R89) and the words of a program. A program comes to the block as the words the host
issues; the block itself never sees text. -/

namespace Sys2Proof.Machine

/-- One assembler line (30 R88) or pseudo-instruction (30 R89). Operands are the numbers as written: a number may be out
of range, which is an assembly error (`AsmLine.wellFormed`). -/
inductive AsmLine where
  | cfgWrite
  | cfgRead
  | write (addr data : Nat)
  | read (addr : Nat)
  | unlock
  | lock
  | erase
  | delayMs (ms : Nat)
  /-- `PROGRAM a, d` -/
  | program (addr data : Nat)
  /-- `VERIFY a` -/
  | verify (addr : Nat)
  /-- `SDP_PROGRAM a, d` -/
  | sdpProgram (addr data : Nat)
  /-- `WAIT_WC` -/
  | waitWc
  deriving DecidableEq, Repr

/-- An `<addr>` or `<ms>` operand: 0 to 65535 (30 R88). -/
def asmWord16Ok (n : Nat) : Bool := n < 2 ^ 16

/-- A `<byte>` operand: 0 to 255 (30 R88). -/
def asmByteOk (n : Nat) : Bool := n < 2 ^ 8

/-- "An out-of-range number is an assembly error, never truncated" (30 R88). -/
def AsmLine.wellFormed : AsmLine → Bool
  | .cfgWrite => true
  | .cfgRead => true
  | .write a d => asmWord16Ok a && asmByteOk d
  | .read a => asmWord16Ok a
  | .unlock => true
  | .lock => true
  | .erase => true
  | .delayMs n => asmWord16Ok n
  | .program a d => asmWord16Ok a && asmByteOk d
  | .verify a => asmWord16Ok a
  | .sdpProgram a d => asmWord16Ok a && asmByteOk d
  | .waitWc => true

/-- White space inside a line. PRESUMED (log entry 15), safe. -/
def isBlank (c : Char) : Bool := c == ' ' || c == '\t' || c == '\r'

/-- The line without its comment, "from `;` to the end of the line" (30 R88). -/
def stripComment : List Char → List Char
  | [] => []
  | c :: cs => if c = ';' then [] else c :: stripComment cs

/-- Without leading blanks. -/
def trimLeft : List Char → List Char
  | [] => []
  | c :: cs => if isBlank c then trimLeft cs else c :: cs

/-- Without leading and trailing blanks. -/
def trim (cs : List Char) : List Char := (trimLeft (trimLeft cs).reverse).reverse

/-- The first word of a line and the rest. -/
def splitWord : List Char → List Char × List Char
  | [] => ([], [])
  | c :: cs => if isBlank c then ([], cs) else (c :: (splitWord cs).1, (splitWord cs).2)

/-- Split at every `sep`. -/
def splitAt (sep : Char) : List Char → List (List Char)
  | [] => [[]]
  | c :: cs =>
    if c = sep then [] :: splitAt sep cs
    else
      match splitAt sep cs with
      | [] => [[c]]
      | w :: ws => (c :: w) :: ws

/-- The value of a digit in base 16, or nothing. -/
def hexDigit (c : Char) : Option Nat :=
  if '0' ≤ c ∧ c ≤ '9' then some (c.toNat - '0'.toNat)
  else if 'a' ≤ c ∧ c ≤ 'f' then some (c.toNat - 'a'.toNat + 10)
  else if 'A' ≤ c ∧ c ≤ 'F' then some (c.toNat - 'A'.toNat + 10)
  else none

/-- The value of a digit in the given base, or nothing. -/
def digitIn (base : Nat) (c : Char) : Option Nat :=
  match hexDigit c with
  | some n => if n < base then some n else none
  | none => none

/-- The digits of a number, most significant first, onto what has been read so far. -/
def digitsFrom (base acc : Nat) : List Char → Option Nat
  | [] => some acc
  | c :: cs =>
    match digitIn base c with
    | some n => digitsFrom base (acc * base + n) cs
    | none => none

/-- A number, "in decimal or as `0x` followed by hexadecimal digits" (30 R88). -/
def parseNumber : List Char → Option Nat
  | [] => none
  | ['0', 'x'] => none
  | '0' :: 'x' :: cs => digitsFrom 16 0 cs
  | cs => digitsFrom 10 0 cs

/-- The operands of a line, separated by commas; an empty rest has none. -/
def parseOperands (cs : List Char) : Option (List Nat) :=
  match trim cs with
  | [] => some []
  | rest => (splitAt ',' rest).mapM fun w => parseNumber (trim w)

/-- The mnemonics, the source's call names as their aliases (30 R88), and the pseudo-instructions (30 R89). -/
def lineOf (name : List Char) (operands : List Nat) : Option AsmLine :=
  match operands with
  | [] =>
    if name = "CFG_WRITE".toList ∨ name = "configure_for_write".toList then some .cfgWrite
    else if name = "CFG_READ".toList ∨ name = "configure_for_read".toList then some .cfgRead
    else if name = "UNLOCK".toList ∨ name = "unlock".toList then some .unlock
    else if name = "LOCK".toList ∨ name = "lock".toList then some .lock
    else if name = "ERASE".toList ∨ name = "erase".toList then some .erase
    else if name = "WAIT_WC".toList then some .waitWc
    else none
  | [n] =>
    if name = "READ".toList ∨ name = "read".toList then some (.read n)
    else if name = "DELAY_MS".toList then some (.delayMs n)
    else if name = "VERIFY".toList then some (.verify n)
    else none
  | [a, d] =>
    if name = "WRITE".toList ∨ name = "write".toList then some (.write a d)
    else if name = "PROGRAM".toList then some (.program a d)
    else if name = "SDP_PROGRAM".toList then some (.sdpProgram a d)
    else none
  | _ => none

/-- One line of text: no line when it holds only blanks and a comment, `none` when it is no line of rules R88 and R89. -/
def parseLine (text : List Char) : Option (List AsmLine) :=
  match trim (stripComment text) with
  | [] => some []
  | cs =>
    match parseOperands (splitWord cs).2 with
    | some operands => (lineOf (splitWord cs).1 operands).map fun l => [l]
    | none => none

/-- The operations of a line; a pseudo-instruction expands to several (30 R89). An out-of-range number is an error, never
truncated (30 R88). `WAIT_WC` is `DELAY_MS T_WC_MS`. -/
def expandLine (c : Config) (l : AsmLine) : Option (List Instr) :=
  if l.wellFormed then
    match l with
    | .cfgWrite => some [.cfgWrite]
    | .cfgRead => some [.cfgRead]
    | .write a d => some [.write (BitVec.ofNat 16 a) (BitVec.ofNat 8 d)]
    | .read a => some [.read (BitVec.ofNat 16 a)]
    | .unlock => some [.unlock]
    | .lock => some [.lock]
    | .erase => some [.erase]
    | .delayMs n => some [.delayMs (BitVec.ofNat 16 n)]
    | .program a d => some [.cfgWrite, .write (BitVec.ofNat 16 a) (BitVec.ofNat 8 d)]
    | .verify a => some [.cfgRead, .read (BitVec.ofNat 16 a)]
    | .sdpProgram a d => some [.cfgWrite, .unlock, .write (BitVec.ofNat 16 a) (BitVec.ofNat 8 d), .lock]
    | .waitWc => if asmWord16Ok c.tWcMs then some [.delayMs (BitVec.ofNat 16 c.tWcMs)] else none
  else none

/-- The operation words of a list of lines, or nothing when one of them is an assembly error. -/
def assembleLines (c : Config) : List AsmLine → Option (List Word)
  | [] => some []
  | l :: ls =>
    match expandLine c l, assembleLines c ls with
    | some is, some ws => some (is.map encode ++ ws)
    | _, _ => none

/-- The operation words of a program text, one operation per line (30 R88). -/
def assembleText (c : Config) (text : List Char) : Option (List Word) :=
  match (splitAt '\n' text).mapM parseLine with
  | some ls => assembleLines c ls.flatten
  | none => none

end Sys2Proof.Machine
end

