-- ==== Sys2Proof/Safety.lean ====
section
/-! DEFINITION. The terms in which claims about the machine are made: the idle bus, the states `SW` and `SR` of
95_test_vectors.md, the machine's invariant, the traces the rules write out, and the replay of a trace on the pins. -/

namespace Sys2Proof.Machine

/-- An idle control line: an output, deasserted (10 R36). -/
abbrev ControlLine.Idle (c : ControlLine) : Prop := c = ⟨.output, .deasserted⟩

/-- All four control lines are outputs and deasserted (10 R36). -/
abbrev State.LinesIdle (s : State) : Prop :=
  s.we.Idle ∧ s.re.Idle ∧ s.lem.Idle ∧ s.lel.Idle

/-- No line is driven: the state from reset until the first mode switch (70 R200, R206). -/
abbrev State.LinesUndriven (s : State) : Prop :=
  s.we.dir = .input ∧ s.re.dir = .input ∧ s.lem.dir = .input ∧ s.lel.dir = .input

/-- The state `SW` of 95_test_vectors.md, whatever `FAULT` is: write mode, data port driven, control lines idle. -/
abbrev State.WriteReady (s : State) : Prop :=
  s.mode = .write ∧ s.ddir = .output ∧ s.LinesIdle

/-- The state `SR` of 95_test_vectors.md, whatever `FAULT` is: read mode, data port released, control lines idle. -/
abbrev State.ReadReady (s : State) : Prop :=
  s.mode = .read ∧ s.ddir = .input ∧ s.LinesIdle

/-- Before the first mode switch since reset: nothing is driven. -/
abbrev State.Unconfigured (s : State) : Prop :=
  s.mode = .unconfigured ∧ s.ddir = .input ∧ s.LinesUndriven

/-- The bus is what `MODE` says (10 R36, 41 R136). -/
abbrev State.BusInv (s : State) : Prop :=
  s.WriteReady ∨ s.ReadReady ∨ s.Unconfigured

/-- `DEV.MEM` is in canonical form and lists only cells that exist (10 R34). -/
abbrev State.MemInv (s : State) : Prop :=
  Memory.wf s.mem = true ∧ Memory.below s.cfg.devSize s.mem = true

/-- `DEV.BUSY` "stays `false` otherwise" (10 R34, 20 R62). -/
abbrev State.BusyInv (s : State) : Prop :=
  s.cfg.strictWriteCycle = false → s.busy = false

/-- `FAULT`, `FAULT_OPC` and `OPC` (10 R22, R25; 60 R183): every operation answered without a fault has completed, a fault names
its operation, and `PIN_CONTRACT` is never recorded. -/
abbrev State.FaultInv (s : State) : Prop :=
  (s.fault = .none → s.opc = s.responses.length) ∧
    (s.fault ≠ .none → s.faultOpc = s.opc) ∧ s.fault ≠ .pinContract

/-- The machine's invariant, for a well-formed configuration. -/
abbrev State.Inv (s : State) : Prop :=
  s.cfg.wellFormed = true ∧ s.BusInv ∧ s.MemInv ∧ s.BusyInv ∧ s.FaultInv

/-- The address of a `WRITE` or `READ` passes the range check, and the device has that cell (60 R180, 20 R51). -/
abbrev State.CellAt (s : State) (a : Addr) (da : Nat) : Prop :=
  devaddr s.cfg a = some da

/-- The device is not inside a write cycle of strict mode (60 R182). -/
abbrev State.NotBusy (s : State) : Prop :=
  (s.cfg.strictWriteCycle && s.busy) = false

/-- `WRITE a, d` is not held back by the command-prefix guard (60 R181). -/
abbrev State.NotGuarded (s : State) (a : Addr) (d : Byte) : Prop :=
  (s.cfg.cmdPrefixGuard && isCommandHead s.cfg a d) = false

/-- The trace of `LATCH_ADDR(a)` (40 R113). -/
def latchTrace (a : Addr) : List TraceItem :=
  [.event (.drive (addrHigh a)), .event (.asserts .lem), .event (.deasserts .lem), .reaction (.latch .msb (addrHigh a)),
   .event (.drive (addrLow a)), .event (.asserts .lel), .event (.deasserts .lel), .reaction (.latch .lsb (addrLow a))]

/-- The trace of `WRITE_CYCLE(a, d, Data)` at device address `da` (40 R115). -/
def writeTrace (a : Addr) (da : Nat) (d : Byte) : List TraceItem :=
  latchTrace a ++
    [.event (.asserts .we), .reaction (.devAddr da), .event (.drive d), .event (.deasserts .we), .reaction (.devWrite da d)]

/-- The trace of `WRITE_CYCLE(a, d, Command)` (40 R115): command addresses are in range, so the device address is `a`. -/
def commandTrace (a : Addr) (d : Byte) : List TraceItem :=
  latchTrace a ++
    [.event (.asserts .we), .reaction (.devAddr a.toNat), .event (.drive d), .event (.deasserts .we),
     .reaction (.devCmdWrite a.toNat d)]

/-- The trace of `ISSUE_SEQUENCE(c, l, t)` (42 R150). -/
def sequenceTrace (c : CommandName) (l : CommandList) (t : Nat) : List TraceItem :=
  (l.map fun p => commandTrace p.1 p.2).flatten ++ [.event (.sleepMs t), .reaction (.devCmd c)]

/-- The trace of `READ_CYCLE(a)` at device address `da`, sampling `v` after `n` no-ops (40 R116). -/
def readTrace (a : Addr) (da n : Nat) (v : Byte) : List TraceItem :=
  [.event (.dirData .output)] ++ latchTrace a ++
    [.event (.dirData .input), .event (.asserts .re), .event (.nop n), .event (.sample v), .reaction (.devRead da v),
     .event (.deasserts .re)]

/-- The trace of a mode switch, ending with the data port's direction (41 R130, R131). -/
def modeSwitchTrace (d : Dir) : List TraceItem :=
  [.event (.deasserts .we), .event (.dirLine .we .output), .event (.deasserts .re), .event (.dirLine .re .output),
   .event (.deasserts .lem), .event (.dirLine .lem .output), .event (.deasserts .lel), .event (.dirLine .lel .output),
   .event (.dirData d)]

/-- How many pin events a trace has; reactions do not count (70 R218). -/
def eventCount (t : List TraceItem) : Nat :=
  (t.filter fun x => match x with
    | .event _ => true
    | .reaction _ => false).length

/-- How many no-op cycles a trace waits (70 R218). -/
def nopCount : List TraceItem → Nat
  | [] => 0
  | .event (.nop n) :: t => n + nopCount t
  | _ :: t => nopCount t

/-- How many milliseconds a trace sleeps (70 R218). -/
def sleepCount : List TraceItem → Nat
  | [] => 0
  | .event (.sleepMs n) :: t => n + sleepCount t
  | _ :: t => sleepCount t

/-- The latch captures of a trace, in order: what the test double of 41 R139 records. -/
def latchWrites : List TraceItem → List (LatchId × Byte)
  | [] => []
  | .reaction (.latch x v) :: t => (x, v) :: latchWrites t
  | _ :: t => latchWrites t

/-- What an observer of the pins sees of the two enables and the data port. -/
structure PinView where
  we : ControlLine
  re : ControlLine
  ddir : Dir
  deriving DecidableEq, Repr

/-- The pins of a state. -/
def State.pinView (s : State) : PinView := ⟨s.we, s.re, s.ddir⟩

/-- The pins after one entry of a trace. -/
def PinView.after (p : PinView) : TraceItem → PinView
  | .event (.dirLine .we d) => { p with we := { p.we with dir := d } }
  | .event (.dirLine .re d) => { p with re := { p.re with dir := d } }
  | .event (.dirData d) => { p with ddir := d }
  | .event (.asserts .we) => { p with we := { p.we with lvl := .asserted } }
  | .event (.asserts .re) => { p with re := { p.re with lvl := .asserted } }
  | .event (.deasserts .we) => { p with we := { p.we with lvl := .deasserted } }
  | .event (.deasserts .re) => { p with re := { p.re with lvl := .deasserted } }
  | _ => p

/-- `WE` and `RE` are asserted together, or the data port is driven while `RE` is asserted (10 R37). -/
def PinView.contention (p : PinView) : Bool :=
  p.re.active && (p.ddir == .output || p.we.active)

/-- The pins after a trace. -/
def PinView.replay (p : PinView) : List TraceItem → PinView
  | [] => p
  | x :: t => (p.after x).replay t

/-- No entry of the trace leaves the pins in contention (10 R37). -/
def PinView.contentionFree (p : PinView) : List TraceItem → Bool
  | [] => true
  | x :: t => !(p.after x).contention && (p.after x).contentionFree t

/-- The state after `raise Fault(c)` by operation `i` (60 R174), written out field by field. -/
def faultedBy (c : FaultCode) (i : Instr) (s : State) : State :=
  { s with
    fault := c
    faultOp := encode i
    faultOpc := s.opc
    responses := s.responses ++ [.faulted c] }

/-- `(a, d)` is in `{head(SEQ_UNLOCK), head(SEQ_LOCK), head(SEQ_ERASE)}` (41 R132). -/
abbrev State.SpellsCommand (s : State) (a : Addr) (d : Byte) : Prop :=
  some (a, d) = s.cfg.seqUnlock.head? ∨ some (a, d) = s.cfg.seqLock.head? ∨ some (a, d) = s.cfg.seqErase.head?

/-- The first check of 60 R172 that operation `i` fails in a block that is not halted, `none` when it fails none: mode, range,
busy, command prefix. -/
def firstFailing (s : State) : Instr → FaultCode
  | .cfgWrite => .none
  | .cfgRead => .none
  | .write a d =>
    if s.mode ≠ .write then .modeViolation
    else if s.cfg.devSize ≤ a.toNat ∧ s.cfg.oorPolicy = .fault then .addressOutOfRange
    else if s.cfg.strictWriteCycle = true ∧ s.busy = true then .deviceBusy
    else if s.cfg.cmdPrefixGuard = true ∧ s.SpellsCommand a d then .cmdPrefix
    else .none
  | .read a =>
    if s.mode ≠ .read then .modeViolation
    else if s.cfg.devSize ≤ a.toNat ∧ s.cfg.oorPolicy = .fault then .addressOutOfRange
    else if s.cfg.strictWriteCycle = true ∧ s.busy = true then .deviceBusy
    else .none
  | .unlock =>
    if s.mode ≠ .write then .modeViolation
    else if s.cfg.strictWriteCycle = true ∧ s.busy = true then .deviceBusy
    else .none
  | .lock =>
    if s.mode ≠ .write then .modeViolation
    else if s.cfg.strictWriteCycle = true ∧ s.busy = true then .deviceBusy
    else .none
  | .erase =>
    if s.mode ≠ .write then .modeViolation
    else if s.cfg.strictWriteCycle = true ∧ s.busy = true then .deviceBusy
    else .none
  | .delayMs _ => .none

/-- The rows of 30 R83: match and mask, in the order of the operation codes. -/
def opcodeRows : List (Word × Word) :=
  [(0x10000000#32, 0xFFFFFFFF#32), (0x20000000#32, 0xFFFFFFFF#32), (0x30000000#32, 0xFF000000#32),
   (0x40000000#32, 0xFF0000FF#32), (0x50000000#32, 0xFFFFFFFF#32), (0x60000000#32, 0xFFFFFFFF#32),
   (0x70000000#32, 0xFFFFFFFF#32), (0x80000000#32, 0xFF0000FF#32)]

/-- The counts of 70 R218 for a completed operation: no-op cycles, milliseconds, events. -/
def delayContent (c : Config) : Instr → Nat × Nat × Nat
  | .cfgWrite => (0, 0, 9)
  | .cfgRead => (0, 0, 9)
  | .write _ _ => (0, 0, 9)
  | .read _ => (c.readSettleNops, 0, 12)
  | .unlock => (0, c.tUnlockMs, 9 * c.seqUnlock.length + 1)
  | .lock => (0, c.tLockMs, 9 * c.seqLock.length + 1)
  | .erase => (0, c.tEraseMs, 9 * c.seqErase.length + 1)
  | .delayMs n => (0, n.toNat, 1)

end Sys2Proof.Machine
end

