-- ==== Sys2Proof/Certificates/Slice0/Obligations.lean ====
section
/-! DEFINITION. The statements for the provers. Each docstring names the rule it formalises. Statements about the effect of an
operation give the whole next state as an update of the old one: what the update does not name is unchanged (the frame). -/

open Sys2Proof Sys2Proof.Machine

/-! ### Encoding -/

/-- 30 R90, every example: the words that spell an operation, both ways, and the words that decode to `Illegal`. -/
def Obligations.EncodingExamplesDecodeAsListed : Prop :=
  (encode .cfgWrite = 0x10000000#32 ∧ decode 0x10000000#32 = some .cfgWrite) ∧
  (encode .cfgRead = 0x20000000#32 ∧ decode 0x20000000#32 = some .cfgRead) ∧
  (encode (.write 0x1234#16 0xAB#8) = 0x301234AB#32 ∧ decode 0x301234AB#32 = some (.write 0x1234#16 0xAB#8)) ∧
  (encode (.write 0x0000#16 0x00#8) = 0x30000000#32 ∧ decode 0x30000000#32 = some (.write 0x0000#16 0x00#8)) ∧
  (encode (.read 0x1234#16) = 0x40123400#32 ∧ decode 0x40123400#32 = some (.read 0x1234#16)) ∧
  (encode (.read 0xFFFF#16) = 0x40FFFF00#32 ∧ decode 0x40FFFF00#32 = some (.read 0xFFFF#16)) ∧
  (encode .unlock = 0x50000000#32 ∧ decode 0x50000000#32 = some .unlock) ∧
  (encode .lock = 0x60000000#32 ∧ decode 0x60000000#32 = some .lock) ∧
  (encode .erase = 0x70000000#32 ∧ decode 0x70000000#32 = some .erase) ∧
  (encode (.delayMs 10#16) = 0x80000A00#32 ∧ decode 0x80000A00#32 = some (.delayMs 10#16)) ∧
  (encode (.delayMs 0#16) = 0x80000000#32 ∧ decode 0x80000000#32 = some (.delayMs 0#16)) ∧
  decode 0x00000000#32 = none ∧ decode 0x90000000#32 = none ∧ decode 0x11000000#32 = none ∧
  decode 0x10000001#32 = none ∧ decode 0x40123401#32 = none ∧ decode 0x31000000#32 = none

/-- 30 R81, R85: the decoder reads back every operation, with every operand at every value of its field. -/
def Obligations.DecodeOfEncodeIsTheOperation : Prop :=
  ∀ i : Instr, decode (encode i) = some i

/-- 30 R81, R85; 60 R174: a word has one meaning and no bit of it is dropped, so the word recorded in `FAULT_OP` is the word the
host issued. -/
def Obligations.EncodeOfDecodeIsTheWord : Prop :=
  ∀ (w : Word) (i : Instr), decode w = some i → encode i = w

/-- 30 R83: "A word `w` is the operation of a row when `(w AND mask) = match`. No two rows match the same word." -/
def Obligations.MaskAndMatchSelectTheOperation : Prop :=
  (∀ w : Word,
    (decode w = some .cfgWrite ↔ w &&& 0xFFFFFFFF#32 = 0x10000000#32) ∧
    (decode w = some .cfgRead ↔ w &&& 0xFFFFFFFF#32 = 0x20000000#32) ∧
    ((∃ a d, decode w = some (.write a d)) ↔ w &&& 0xFF000000#32 = 0x30000000#32) ∧
    ((∃ a, decode w = some (.read a)) ↔ w &&& 0xFF0000FF#32 = 0x40000000#32) ∧
    (decode w = some .unlock ↔ w &&& 0xFFFFFFFF#32 = 0x50000000#32) ∧
    (decode w = some .lock ↔ w &&& 0xFFFFFFFF#32 = 0x60000000#32) ∧
    (decode w = some .erase ↔ w &&& 0xFFFFFFFF#32 = 0x70000000#32) ∧
    ((∃ n, decode w = some (.delayMs n)) ↔ w &&& 0xFF0000FF#32 = 0x80000000#32)) ∧
  ∀ r₁ ∈ opcodeRows, ∀ r₂ ∈ opcodeRows, r₁ ≠ r₂ →
    ∀ w : Word, ¬(w &&& r₁.2 = r₁.1 ∧ w &&& r₂.2 = r₂.1)

/-- 30 R86: the words that decode to `Illegal`, and how many words decode to an operation. -/
def Obligations.IllegalWordsAreExactlyTheReservedOnes : Prop :=
  (∀ w : Word, decode w = none ↔
    opcField w = 0x0#4 ∨ 9 ≤ (opcField w).toNat ∨ rsvField w ≠ 0#4 ∨
    ((opcField w = 0x1#4 ∨ opcField w = 0x2#4 ∨ opcField w = 0x5#4 ∨ opcField w = 0x6#4 ∨ opcField w = 0x7#4) ∧
      w.toNat % 2 ^ 24 ≠ 0) ∨
    ((opcField w = 0x4#4 ∨ opcField w = 0x8#4) ∧ dataField w ≠ 0#8)) ∧
  {w : Word | decode w ≠ none}.ncard = 2 + 2 ^ 24 + 2 ^ 16 + 3 + 2 ^ 16

/-- 30 R84: the operands are the word's fields, read as unsigned numbers. -/
def Obligations.OperandsAreTheFieldsOfTheWord : Prop :=
  ∀ w : Word,
    (∀ a d, decode w = some (.write a d) → a.toNat = w.toNat / 2 ^ 8 % 2 ^ 16 ∧ d.toNat = w.toNat % 2 ^ 8) ∧
    (∀ a, decode w = some (.read a) → a.toNat = w.toNat / 2 ^ 8 % 2 ^ 16) ∧
    (∀ n, decode w = some (.delayMs n) → n.toNat = w.toNat / 2 ^ 8 % 2 ^ 16)

/-! ### The step -/

/-- 00 R7, R8; 70 R220: a step runs the operation that the next issued word spells, on the state whose stream it has been taken
off, and it takes a controller reset the same way. The model's own choices, no rule of the spec: that the host's stream is a field
of the state (log entry 2), that `withFetchWord` issues a word (log entry 7), and that with nothing issued `step` is refused with
`noOperationIssued` (log entries 2 and 7). -/
def Obligations.StepRunsTheIssuedOperation : Prop :=
  ∀ s : State,
    (∀ w rest i, s.pending = .op w :: rest → decode w = some i → step s = exec i { s with pending := rest }) ∧
    (∀ w i, decode w = some i → step (s.withFetchWord 32 w.toNat) = exec i s) ∧
    (∀ rest, s.pending = .reset :: rest → step s = .next (controllerReset { s with pending := rest })) ∧
    (s.pending = [] → step s = .refused .noOperationIssued)

/-- 60 R178 with the entry of 60 R174: a word that decodes to `Illegal`, in any mode, records `ILLEGAL_OP`, the word and `OPC`, and
changes nothing else. -/
def Obligations.IllegalWordRaisesIllegalOp : Prop :=
  ∀ (s : State) (w : Word) (rest : List HostInput),
    s.pending = .op w :: rest → s.fault = .none → decode w = none →
    step s = .next { s with
      pending := rest
      fault := .illegalOp
      faultOp := w
      faultOpc := s.opc
      responses := s.responses ++ [.faulted .illegalOp] }

/-- 60 R175: while `FAULT != 0` every word, legal or not, gets the response `Refused` and changes no state. -/
def Obligations.HaltedBlockRefusesEveryWord : Prop :=
  ∀ (s : State) (w : Word) (rest : List HostInput),
    s.pending = .op w :: rest → s.fault ≠ .none →
    step s = .next { s with pending := rest, responses := s.responses ++ [.refused] }

/-! ### Faults -/

/-- 60 R179: `WRITE`, `UNLOCK`, `LOCK` or `ERASE` with `MODE != Write`, or `READ` with `MODE != Read`. -/
def Obligations.WrongModeRaisesModeViolation : Prop :=
  ∀ s : State, s.fault = .none →
    (s.mode ≠ .write →
      (∀ a d, exec (.write a d) s = .next (faultedBy .modeViolation (.write a d) s)) ∧
      exec .unlock s = .next (faultedBy .modeViolation .unlock s) ∧
      exec .lock s = .next (faultedBy .modeViolation .lock s) ∧
      exec .erase s = .next (faultedBy .modeViolation .erase s)) ∧
    (s.mode ≠ .read → ∀ a, exec (.read a) s = .next (faultedBy .modeViolation (.read a) s))

/-- 60 R180: an address at or above `DEV_SIZE` under `OOR_POLICY = Fault`; never under `Alias`, where the address wraps. -/
def Obligations.AddressOutOfRangeFaults : Prop :=
  (∀ (s : State) (a : Addr) (d : Byte), s.fault = .none → s.cfg.devSize ≤ a.toNat → s.cfg.oorPolicy = .fault →
    (s.mode = .write → exec (.write a d) s = .next (faultedBy .addressOutOfRange (.write a d) s)) ∧
    (s.mode = .read → exec (.read a) s = .next (faultedBy .addressOutOfRange (.read a) s))) ∧
  (∀ (s t : State) (i : Instr), s.fault = .none → s.cfg.oorPolicy = .aliased → exec i s = .next t →
    t.fault ≠ .addressOutOfRange) ∧
  (∀ (c : Config) (a : Addr), c.devSize ≤ a.toNat → c.oorPolicy = .aliased → devaddr c a = some (a.toNat % c.devSize))

/-- 60 R182: strict mode, while the device is busy, before any event; never without strict mode. -/
def Obligations.BusyDeviceFaultsInStrictMode : Prop :=
  (∀ (s : State) (a : Addr) (d : Byte), s.fault = .none → s.cfg.strictWriteCycle = true → s.busy = true →
    (s.mode = .write →
      (¬(s.cfg.devSize ≤ a.toNat ∧ s.cfg.oorPolicy = .fault) →
        exec (.write a d) s = .next (faultedBy .deviceBusy (.write a d) s)) ∧
      exec .unlock s = .next (faultedBy .deviceBusy .unlock s) ∧
      exec .lock s = .next (faultedBy .deviceBusy .lock s) ∧
      exec .erase s = .next (faultedBy .deviceBusy .erase s)) ∧
    (s.mode = .read → ¬(s.cfg.devSize ≤ a.toNat ∧ s.cfg.oorPolicy = .fault) →
      exec (.read a) s = .next (faultedBy .deviceBusy (.read a) s))) ∧
  (∀ (s t : State) (i : Instr), s.fault = .none → s.cfg.strictWriteCycle = false → exec i s = .next t →
    t.fault ≠ .deviceBusy)

/-- 60 R181: with the guard on, a `WRITE` of the first pair of a command sequence; never for another pair, nor with the guard
off, nor by another operation. -/
def Obligations.CommandPrefixIsGuarded : Prop :=
  (∀ (s : State) (a : Addr) (d : Byte), s.fault = .none → s.mode = .write →
    ¬(s.cfg.devSize ≤ a.toNat ∧ s.cfg.oorPolicy = .fault) → ¬(s.cfg.strictWriteCycle = true ∧ s.busy = true) →
    s.cfg.cmdPrefixGuard = true → s.SpellsCommand a d →
    exec (.write a d) s = .next (faultedBy .cmdPrefix (.write a d) s)) ∧
  (∀ (s t : State) (a : Addr) (d : Byte), s.fault = .none → ¬(s.cfg.cmdPrefixGuard = true ∧ s.SpellsCommand a d) →
    exec (.write a d) s = .next t → t.fault ≠ .cmdPrefix) ∧
  (∀ (s t : State) (i : Instr), s.fault = .none → (∀ a d, i ≠ .write a d) → exec i s = .next t → t.fault ≠ .cmdPrefix)

/-- 60 R172: the checks in their order (halt, decode, mode, range, busy, command prefix), for every issued word. The bus invariant
rules out the states in which a pin primitive would be used against its direction. -/
def Obligations.ChecksAreMadeInOrder : Prop :=
  ∀ (s t : State) (w : Word) (rest : List HostInput),
    s.BusInv → s.pending = .op w :: rest → step s = .next t →
    if s.fault ≠ .none then t.fault = s.fault ∧ t.responses = s.responses ++ [.refused]
    else
      t.fault = (match decode w with
        | none => .illegalOp
        | some i => firstFailing s i) ∧
      (t.fault ≠ .none → t.responses = s.responses ++ [.faulted t.fault])

/-- 60 R173, R174: a word that faults, whether it spells an operation or not, records the code, the word and `OPC`, answers
`Faulted`, and changes nothing else: no event, no pin, no latch, no device state. -/
def Obligations.FaultEntryChangesNothingElse : Prop :=
  ∀ (s t : State) (w : Word) (rest : List HostInput),
    s.BusInv → s.fault = .none → s.pending = .op w :: rest → step s = .next t → t.fault ≠ .none →
    t = { s with
      pending := rest
      fault := t.fault
      faultOp := w
      faultOpc := s.opc
      responses := s.responses ++ [.faulted t.fault] }

/-- 10 R24; 60 R176: the fault record is sticky; only a controller reset leaves the halted state. -/
def Obligations.OnlyAResetClearsAFault : Prop :=
  ∀ s t : State, s.fault ≠ .none → step s = .next t →
    ((∀ rest, s.pending ≠ .reset :: rest) →
      t.fault = s.fault ∧ t.faultOp = s.faultOp ∧ t.faultOpc = s.faultOpc) ∧
    (t.fault = .none → ∃ rest, s.pending = .reset :: rest)

/-- 60 R183, 40 R104, R105, R107: the pin primitives raise `PIN_CONTRACT` when used against their direction, and no operation
reaches it. -/
def Obligations.PinContractIsNeverReached : Prop :=
  (∀ (s : State) (v : Byte), s.ddir = .input → pWrite v s = .raised .pinContract s) ∧
  (∀ s : State, s.ddir = .output → pRead s = .raised .pinContract s) ∧
  (∀ (s t : State) (i : Instr), s.BusInv → s.fault ≠ .pinContract → exec i s = .next t → t.fault ≠ .pinContract)

/-! ### Reset -/

/-- 70 R202 at power-on with the block registers of 10 R39: what the spec gives. The five unspecified values (`DOUT` and the four
levels) are free and nothing is said of them. -/
def Obligations.PowerOnState : Prop :=
  State.reset.opc = 0 ∧ State.reset.mode = .unconfigured ∧ State.reset.fault = .none ∧
  State.reset.faultOp = 0x00000000#32 ∧ State.reset.faultOpc = 0 ∧ State.reset.ddir = .input ∧
  State.reset.LinesUndriven ∧ State.reset.latM = none ∧ State.reset.latL = none ∧
  (∀ a, Memory.read a State.reset.mem = none) ∧ State.reset.sdp = none ∧ State.reset.busy = false

/-- 70 R200, R201: a controller reset of any state, halted or not, sets every block register to its reset value, leaves the
latches and the whole device alone, `DEV.BUSY` included (70 R202; 10 R34; 20 R61, R62; log entry 6), and gives the host no
response. That it empties the record of the run is the model's choice (log entry 3). -/
def Obligations.ControllerResetRestoresTheBlock : Prop :=
  ∀ (s : State) (rest : List HostInput), s.pending = .reset :: rest →
    ∃ t, step s = .next t ∧
      t.opc = 0 ∧ t.mode = .unconfigured ∧ t.fault = .none ∧ t.faultOp = 0x00000000#32 ∧ t.faultOpc = 0 ∧
      t.ddir = .input ∧ t.LinesUndriven ∧ t.latM = s.latM ∧ t.latL = s.latL ∧ t.mem = s.mem ∧ t.sdp = s.sdp ∧
      t.busy = s.busy ∧ t.cfg = s.cfg ∧ t.pending = rest ∧ t.responses = [] ∧ t.trace = []

/-! ### The bus driver's operations -/

/-- 41 R130: `CFG_WRITE` completes from every state that is not halted, with its nine events. -/
def Obligations.CfgWriteConfiguresTheBus : Prop :=
  ∀ s : State, s.fault = .none →
    exec .cfgWrite s = .next { s with
      opc := s.opc + 1
      mode := .write
      ddir := .output
      we := ⟨.output, .deasserted⟩
      re := ⟨.output, .deasserted⟩
      lem := ⟨.output, .deasserted⟩
      lel := ⟨.output, .deasserted⟩
      responses := s.responses ++ [.ok]
      trace := s.trace ++ modeSwitchTrace .output }

/-- 41 R131: `CFG_READ` completes from every state that is not halted, with its nine events. -/
def Obligations.CfgReadReleasesTheDataPort : Prop :=
  ∀ s : State, s.fault = .none →
    exec .cfgRead s = .next { s with
      opc := s.opc + 1
      mode := .read
      ddir := .input
      we := ⟨.output, .deasserted⟩
      re := ⟨.output, .deasserted⟩
      lem := ⟨.output, .deasserted⟩
      lel := ⟨.output, .deasserted⟩
      responses := s.responses ++ [.ok]
      trace := s.trace ++ modeSwitchTrace .input }

/-- 41 R132 (completion), 40 R115, 20 R57: `WRITE a, d` completes in write mode when its checks pass; the nine events, and the cell
by `DEV.SDP`: stored, kept, or either. Every other cell reads as before. -/
def Obligations.WriteCompletesByProtection : Prop :=
  ∀ (s : State) (a : Addr) (d : Byte) (da : Nat),
    s.fault = .none → s.WriteReady → s.CellAt a da → s.NotBusy → ¬(s.cfg.cmdPrefixGuard = true ∧ s.SpellsCommand a d) →
    ∃ (m : List Host.Cell) (n : Nat),
      exec (.write a d) s = .next { s with
        opc := s.opc + 1
        dout := d
        latM := some (addrHigh a)
        latL := some (addrLow a)
        mem := m
        busy := s.cfg.strictWriteCycle || s.busy
        responses := s.responses ++ [.ok]
        trace := s.trace ++ writeTrace a da d
        draws := n } ∧
      (s.sdp = some .isUnprotected → Memory.read da m = some d ∧ n = s.draws) ∧
      (s.sdp = some .isProtected → m = s.mem ∧ n = s.draws) ∧
      (s.sdp = none → Memory.read da m = some d ∨ Memory.read da m = Memory.read da s.mem) ∧
      ∀ b, b ≠ da → Memory.read b m = Memory.read b s.mem

/-- 41 R133 (completion), 40 R116, 20 R56: `READ a` completes in read mode when its checks pass; the twelve events, and the response
with the cell's content where the model knows it. Nothing of the device changes, and a known cell uses no free value. -/
def Obligations.ReadCompletesWithTheCell : Prop :=
  ∀ (s : State) (a : Addr) (da : Nat),
    s.fault = .none → s.ReadReady → s.CellAt a da → s.NotBusy →
    ∃ (v : Byte) (n : Nat),
      exec (.read a) s = .next { s with
        opc := s.opc + 1
        dout := addrLow a
        latM := some (addrHigh a)
        latL := some (addrLow a)
        responses := s.responses ++ [.data v]
        trace := s.trace ++ readTrace a da s.cfg.readSettleNops v
        draws := n } ∧
      ∀ x, Memory.read da s.mem = some x → v = x ∧ n = s.draws

/-- 41 R140 with 20 R51: the device address of an operation's address: itself below `DEV_SIZE`, reduced under `Alias`, and below
`DEV_SIZE` in every well-formed configuration. -/
def Obligations.DeviceAddressIsInRange : Prop :=
  ∀ (c : Config) (a : Addr), c.wellFormed = true →
    (a.toNat < c.devSize → devaddr c a = some a.toNat) ∧
    (c.devSize ≤ a.toNat → c.oorPolicy = .aliased → devaddr c a = some (a.toNat % c.devSize)) ∧
    ∀ da, devaddr c a = some da → da < c.devSize ∧ da % c.devSize = a.toNat % c.devSize

/-- 41 R139: in every completed `WRITE` and `READ` the MSB latch is written before the LSB latch, and both before the cycle's enable
is asserted. -/
def Obligations.LatchesAreWrittenMsbFirst : Prop :=
  ∀ (s t : State) (a : Addr) (d : Byte), s.BusInv → s.fault = .none → t.fault = .none →
    (exec (.write a d) s = .next t →
      ∃ pre post, t.trace = s.trace ++ pre ++ .event (.asserts .we) :: post ∧
        latchWrites pre = [(.msb, addrHigh a), (.lsb, addrLow a)] ∧ latchWrites post = []) ∧
    (exec (.read a) s = .next t →
      ∃ pre post, t.trace = s.trace ++ pre ++ .event (.asserts .re) :: post ∧
        latchWrites pre = [(.msb, addrHigh a), (.lsb, addrLow a)] ∧ latchWrites post = [])

/-- 40 R113, 10 R32: `LATCH_ADDR(a)` leaves the latched address `a`, whatever the latches held, and emits exactly its trace. -/
def Obligations.LatchAddrLeavesTheAddress : Prop :=
  ∀ (s : State) (a : Addr), s.ddir = .output → s.LinesIdle →
    ∃ t, latchAddr a s = .done () t ∧ t.latchedAddr = some a ∧ t.latM = some (addrHigh a) ∧ t.latL = some (addrLow a) ∧
      t.trace = s.trace ++ latchTrace a ∧ t = { s with dout := t.dout, latM := t.latM, latL := t.latL, trace := t.trace }

/-- 40 R110, R111: a strobe pulse with the data port driven captures the byte on the lines; with the port released it leaves the
latch unknown; either way the other latch holds, and the trace has the pulse and its capture. -/
def Obligations.StrobeCapturesTheDrivenByte : Prop :=
  ∀ (s : State) (x : LatchId), s.LinesIdle →
    ∃ t, strobe x s = .done () t ∧
      (match x with
        | .msb => t.latM = (if s.ddir = .output then some s.dout else none) ∧ t.latL = s.latL
        | .lsb => t.latL = (if s.ddir = .output then some s.dout else none) ∧ t.latM = s.latM) ∧
      t.trace = s.trace ++ [.event (.asserts (strobeLine x)), .event (.deasserts (strobeLine x))] ++
        (if s.ddir = .output then [.reaction (.latch x s.dout)] else [])

/-- 40 R102: the physical level of a driven line, 1 exactly when "asserted" and "active high" agree; an undriven line has none. -/
def Obligations.PhysicalLevelFollowsPolarity : Prop :=
  ∀ (s : State) (l : Line),
    ((s.line l).dir = .input → s.phys l = none) ∧
    ((s.line l).dir = .output →
      (s.phys l = some true ↔ ((s.line l).lvl = .asserted ↔ polarityOf s.cfg l = .activeHigh)) ∧ s.phys l ≠ none)

/-- 40 R104, R105; 20 R54: the data groups of a well-formed configuration split a byte and give it back, whatever the groups. -/
def Obligations.DataGroupsRecombineTheByte : Prop :=
  ∀ (c : Config) (v : Byte), c.wellFormed = true →
    joinGroups c.dataGroups (c.dataGroups.map fun g => groupBits g v) = v.toNat

/-! ### The command sequencer's operations -/

/-- 42 R152 (completion), R150; 20 R58, R59: `UNLOCK` completes in write mode: the whole sequence, the settle delay, then the device
is unprotected; no cell changes. -/
def Obligations.UnlockCompletes : Prop :=
  ∀ (s : State) (p : Addr × Byte), s.cfg.wellFormed = true → s.fault = .none → s.WriteReady → s.NotBusy →
    s.cfg.seqUnlock.getLast? = some p →
    exec .unlock s = .next { s with
      opc := s.opc + 1
      dout := p.2
      latM := some (addrHigh p.1)
      latL := some (addrLow p.1)
      sdp := some .isUnprotected
      busy := false
      responses := s.responses ++ [.ok]
      trace := s.trace ++ sequenceTrace .unlock s.cfg.seqUnlock s.cfg.tUnlockMs }

/-- 42 R153 (completion), R150; 20 R58, R59: `LOCK` completes in write mode: the whole sequence, the settle delay, then the device is
protected; no cell changes. -/
def Obligations.LockCompletes : Prop :=
  ∀ (s : State) (p : Addr × Byte), s.cfg.wellFormed = true → s.fault = .none → s.WriteReady → s.NotBusy →
    s.cfg.seqLock.getLast? = some p →
    exec .lock s = .next { s with
      opc := s.opc + 1
      dout := p.2
      latM := some (addrHigh p.1)
      latL := some (addrLow p.1)
      sdp := some .isProtected
      busy := false
      responses := s.responses ++ [.ok]
      trace := s.trace ++ sequenceTrace .lock s.cfg.seqLock s.cfg.tLockMs }

/-- 42 R154 (completion), R150; 20 R59, R60: `ERASE` completes in write mode, whatever the protection state: every cell reads `0xFF`;
the protection state is kept under `Unchanged` and becomes either known state under `Draw`. -/
def Obligations.EraseCompletes : Prop :=
  ∀ (s : State) (p : Addr × Byte), s.cfg.wellFormed = true → s.fault = .none → s.WriteReady → s.NotBusy →
    s.cfg.seqErase.getLast? = some p →
    ∃ (m : List Host.Cell) (q : Option Sdp) (n : Nat),
      exec .erase s = .next { s with
        opc := s.opc + 1
        dout := p.2
        latM := some (addrHigh p.1)
        latL := some (addrLow p.1)
        mem := m
        sdp := q
        busy := false
        responses := s.responses ++ [.ok]
        trace := s.trace ++ sequenceTrace .erase s.cfg.seqErase s.cfg.tEraseMs
        draws := n } ∧
      (∀ a, a < s.cfg.devSize → Memory.read a m = some 0xFF#8) ∧
      (s.cfg.sdpAfterErase = .unchanged → q = s.sdp ∧ n = s.draws) ∧
      (s.cfg.sdpAfterErase = .draw → q = some .isProtected ∨ q = some .isUnprotected)

/-- 42 R158: `DELAY_MS n` completes in every mode; in strict mode a delay of at least `T_WC_MS` ends the device's busy time; nothing
else changes but `OPC`. -/
def Obligations.DelayCompletesInEveryMode : Prop :=
  ∀ (s : State) (n : BitVec 16), s.fault = .none →
    exec (.delayMs n) s = .next { s with
      opc := s.opc + 1
      busy := if s.cfg.strictWriteCycle = true ∧ s.cfg.tWcMs ≤ n.toNat then false else s.busy
      responses := s.responses ++ [.ok]
      trace := s.trace ++ [.event (.sleepMs n.toNat)] }

/-! ### What an operation may change -/

/-- 10 R35, the columns of the table, and R22: which operations write each element, for every operation that completes. -/
def Obligations.OnlyTheListedOperationsWriteEachElement : Prop :=
  ∀ (s t : State) (i : Instr), s.BusInv → s.cfg.wellFormed = true → s.fault = .none → exec i s = .next t → t.fault = .none →
    t.opc = s.opc + 1 ∧ t.faultOp = s.faultOp ∧ t.faultOpc = s.faultOpc ∧ t.cfg = s.cfg ∧ t.pending = s.pending ∧
    (i ≠ .cfgWrite → i ≠ .cfgRead → t.mode = s.mode ∧ t.ddir = s.ddir ∧ t.we = s.we ∧ t.re = s.re ∧ t.lem = s.lem ∧
      t.lel = s.lel) ∧
    ((i = .cfgWrite ∨ i = .cfgRead ∨ ∃ n, i = .delayMs n) → t.dout = s.dout ∧ t.latM = s.latM ∧ t.latL = s.latL) ∧
    ((∀ a d, i ≠ .write a d) → i ≠ .erase → t.mem = s.mem) ∧
    (i ≠ .unlock → i ≠ .lock → (i = .erase → s.cfg.sdpAfterErase = .unchanged) → t.sdp = s.sdp) ∧
    ((i = .cfgWrite ∨ i = .cfgRead ∨ ∃ a, i = .read a) → t.busy = s.busy)

/-- 20 R62: the busy time of a data write. Without strict mode `DEV.BUSY` stays `false`; with it a completed `WRITE` sets it, a long
enough `DELAY_MS` or a command clears it, and nothing else changes it. -/
def Obligations.BusyTimeBeginsAndEnds : Prop :=
  ∀ (s t : State) (i : Instr), s.BusInv → s.cfg.wellFormed = true → s.fault = .none → exec i s = .next t → t.fault = .none →
    (s.cfg.strictWriteCycle = false → s.busy = false → t.busy = false) ∧
    (s.cfg.strictWriteCycle = true →
      t.busy = match i with
        | .cfgWrite => s.busy
        | .cfgRead => s.busy
        | .write _ _ => true
        | .read _ => s.busy
        | .unlock => false
        | .lock => false
        | .erase => false
        | .delayMs n => if s.cfg.tWcMs ≤ n.toNat then false else s.busy)

/-- 70 R218: the no-op cycles, the milliseconds and the events of every completed operation. -/
def Obligations.DelayContentOfEachOperation : Prop :=
  ∀ (s t : State) (i : Instr), s.BusInv → s.cfg.wellFormed = true → s.fault = .none → exec i s = .next t → t.fault = .none →
    ∃ new, t.trace = s.trace ++ new ∧ (nopCount new, sleepCount new, eventCount new) = delayContent s.cfg i

/-- 41 R137: no branch on device state. Two states that differ only in the cells, the protection state and the draw counter run
every operation but `READ` to the same events, response, pins and latches. -/
def Obligations.NoBranchOnDeviceState : Prop :=
  ∀ (s t : State) (i : Instr) (m : List Host.Cell) (p : Option Sdp) (n : Nat),
    s.BusInv → s.cfg.wellFormed = true → (∀ a, i ≠ .read a) → exec i s = .next t →
    ∃ m' p' n', exec i { s with mem := m, sdp := p, draws := n } = .next { t with mem := m', sdp := p', draws := n' }

/-! ### Runs of several operations -/

/-- 41 R138, the source's round trip: on an unprotected device, without strict mode, a byte written in range reads back. The rule's
words do not exempt the pair that the command-prefix guard of 60 R181 refuses; the premise here does, which is the model's reading
of the two rules (log entry 14). -/
def Obligations.WrittenByteReadsBack : Prop :=
  ∀ (s : State) (a : Addr) (b : Byte), s.WriteReady → s.fault = .none → s.sdp = some .isUnprotected →
    s.cfg.strictWriteCycle = false → a.toNat < s.cfg.devSize → ¬(s.cfg.cmdPrefixGuard = true ∧ s.SpellsCommand a b) →
    ∃ t₁ t₂ t₃, exec (.write a b) s = .next t₁ ∧ exec .cfgRead t₁ = .next t₂ ∧ exec (.read a) t₂ = .next t₃ ∧
      t₃.responses = s.responses ++ [.ok, .ok, .data b]

/-- 42 R159: after `LOCK` a `WRITE` leaves its cell; after `UNLOCK` it sets it; a `LOCK` after the `UNLOCK` restores the first case.
The `WRITE`s are ones their own checks let through. -/
def Obligations.ProtectionFollowsLockAndUnlock : Prop :=
  ∀ (s : State) (a : Addr) (d : Byte) (da : Nat), s.cfg.wellFormed = true → s.WriteReady → s.fault = .none →
    s.cfg.strictWriteCycle = false → s.CellAt a da → ¬(s.cfg.cmdPrefixGuard = true ∧ s.SpellsCommand a d) →
    (∃ t₁ t₂, exec .lock s = .next t₁ ∧ exec (.write a d) t₁ = .next t₂ ∧ t₂.mem = s.mem ∧ t₂.fault = .none) ∧
    (∃ t₁ t₂, exec .unlock s = .next t₁ ∧ exec (.write a d) t₁ = .next t₂ ∧ Memory.read da t₂.mem = some d ∧
      t₂.fault = .none) ∧
    (∃ t₁ t₂ t₃, exec .unlock s = .next t₁ ∧ exec .lock t₁ = .next t₂ ∧ exec (.write a d) t₂ = .next t₃ ∧
      t₃.mem = s.mem ∧ t₃.fault = .none)

/-- 42 R160: after `ERASE` and `CFG_READ`, `READ a` responds `Data(0xFF)` for every cell. -/
def Obligations.ErasedDeviceReadsFF : Prop :=
  ∀ s : State, s.cfg.wellFormed = true → s.WriteReady → s.fault = .none → s.NotBusy →
    ∃ t₁ t₂, exec .erase s = .next t₁ ∧ exec .cfgRead t₁ = .next t₂ ∧
      ∀ a : Addr, a.toNat < s.cfg.devSize →
        ∃ t₃, exec (.read a) t₂ = .next t₃ ∧ t₃.responses = s.responses ++ [.ok, .ok, .data 0xFF#8]

/-! ### Whole-machine rules -/

/-- The invariant that every step keeps: a well-formed configuration, a bus that is what `MODE` says (10 R36, 41 R136), a device memory
in canonical form with no cell beyond `DEV_SIZE` (10 R34), the busy flag (20 R62) and the fault record (10 R22, R25; 60 R183). -/
def Obligations.EveryStepKeepsTheInvariant : Prop :=
  ∀ s t : State, s.Inv → step s = .next t → t.Inv

/-- The invariant holds at power-on, whatever the five free values are. -/
def Obligations.PowerOnMeetsTheInvariant : Prop :=
  State.reset.Inv

/-- The canonical form of the device memory is kept by every step from every state. -/
def Obligations.EveryStepKeepsMemoryCanonical : Prop :=
  ∀ s t : State, Memory.wf s.mem = true → step s = .next t → Memory.wf t.mem = true

/-- 10 R36, R37, 60 R170: from a state that meets the invariant the machine never stops with a fault, and it declines a step only
when the host has issued nothing. The faults it excludes are the model's own stuck states (log entry 8), and the refusal
`noOperationIssued` is the model's choice (log entry 7): neither is a rule of the spec. -/
def Obligations.NoStepFromTheInvariantStops : Prop :=
  ∀ s : State, s.Inv → (∃ t, step s = .next t) ∨ (s.pending = [] ∧ step s = .refused .noOperationIssued)

/-- 70 R203: "The parameters never change while the block runs." -/
def Obligations.ParametersNeverChange : Prop :=
  ∀ s t : State, step s = .next t → t.cfg = s.cfg

/-- 10 R22: `OPC` advances by one on a completed operation and is unchanged by one that faults or is refused. -/
def Obligations.OpcCountsCompletedOperations : Prop :=
  ∀ (s t : State) (w : Word) (rest : List HostInput), s.BusInv → s.pending = .op w :: rest → step s = .next t →
    (s.fault = .none → t.fault = .none → t.opc = s.opc + 1) ∧ (t.fault ≠ .none → t.opc = s.opc)

/-- 10 R33: every operation returns exactly one response, of the four kinds. -/
def Obligations.EveryOperationReturnsOneResponse : Prop :=
  ∀ (s t : State) (w : Word) (rest : List HostInput), s.BusInv → s.pending = .op w :: rest → step s = .next t →
    ∃ r, t.responses = s.responses ++ [r] ∧
      (r = .refused ↔ s.fault ≠ .none) ∧
      (∀ c, r = .faulted c → c ≠ .none ∧ t.fault = c) ∧
      (∀ v, r = .data v → t.fault = .none ∧ ∃ a, decode w = some (.read a)) ∧
      (r = .ok → t.fault = .none ∧ ∃ i, decode w = some i ∧ ∀ a, i ≠ .read a)

/-- 10 R37: at no event of any trace are `WE` and `RE` asserted together, and at no event is the data port driven while `RE` is
asserted; the events replayed on the pins end where the state's pins are. A line counts as asserted while it is driven: an
undriven line is held idle by the board (70 R206, log entry 13). -/
def Obligations.PinsAreNeverInContention : Prop :=
  ∀ (s t : State) (i : Instr), s.BusInv → s.cfg.wellFormed = true → exec i s = .next t →
    ∃ new, t.trace = s.trace ++ new ∧ s.pinView.contentionFree new = true ∧ s.pinView.replay new = t.pinView

/-- 40 R114, 10 R32: after every completed `WRITE`, `READ` or command operation the latched address is known, and for `WRITE` and
`READ` it is the operation's own. -/
def Obligations.LatchedAddressIsKnownAfterACycle : Prop :=
  ∀ (s t : State) (a : Addr) (d : Byte), s.BusInv → s.cfg.wellFormed = true → s.fault = .none → t.fault = .none →
    (exec (.write a d) s = .next t → t.latchedAddr = some a) ∧
    (exec (.read a) s = .next t → t.latchedAddr = some a) ∧
    (exec .unlock s = .next t → t.latchedAddr = s.cfg.seqUnlock.getLast?.map Prod.fst) ∧
    (exec .lock s = .next t → t.latchedAddr = s.cfg.seqLock.getLast?.map Prod.fst) ∧
    (exec .erase s = .next t → t.latchedAddr = s.cfg.seqErase.getLast?.map Prod.fst)

/-! ### The assembler -/

/-- 30 R89: the expansion of the four pseudo-instructions, with operands in range. -/
def Obligations.PseudoInstructionsExpand : Prop :=
  ∀ (c : Config) (a : Addr) (d : Byte),
    expandLine c (.program a.toNat d.toNat) = some [.cfgWrite, .write a d] ∧
    expandLine c (.verify a.toNat) = some [.cfgRead, .read a] ∧
    expandLine c (.sdpProgram a.toNat d.toNat) = some [.cfgWrite, .unlock, .write a d, .lock] ∧
    (c.tWcMs ≤ 65535 → expandLine c .waitWc = some [.delayMs (BitVec.ofNat 16 c.tWcMs)])

/-- 30 R88: "An out-of-range number is an assembly error, never truncated." -/
def Obligations.OutOfRangeNumbersAreAssemblyErrors : Prop :=
  ∀ (c : Config) (a d : Nat),
    (65535 < a ∨ 255 < d → expandLine c (.write a d) = none ∧ expandLine c (.program a d) = none ∧
      expandLine c (.sdpProgram a d) = none) ∧
    (65535 < a → expandLine c (.read a) = none ∧ expandLine c (.verify a) = none ∧ expandLine c (.delayMs a) = none)

/-! ### The device across operations and resets -/

/-- 20 R62: `DEV.BUSY` becomes `false` only when a long enough `DELAY_MS` or a command completes: no other word does it, and no
controller reset. -/
def Obligations.BusyEndsOnlyByDelayOrCommand : Prop :=
  ∀ s t : State, s.BusInv → s.cfg.wellFormed = true → step s = .next t → s.busy = true → t.busy = false →
    s.fault = .none ∧ t.fault = .none ∧
      ∃ w rest i, s.pending = .op w :: rest ∧ decode w = some i ∧
        (i = .unlock ∨ i = .lock ∨ i = .erase ∨
          ∃ n, i = .delayMs n ∧ s.cfg.strictWriteCycle = true ∧ s.cfg.tWcMs ≤ n.toNat)
end

