-- ==== Sys2Proof/Laws/Encoding.lean ====
section
/-! SUPPORT. The fields of an operation word as numbers (30 R81), and the fields of a packed word. -/

namespace Sys2Proof

theorem packWord_toNat (opc : BitVec 4) (imm : BitVec 16) (data : Byte) :
    (packWord opc imm data).toNat = opc.toNat * 2 ^ 28 + imm.toNat * 2 ^ 8 + data.toNat := by
  have ho := opc.isLt
  have hi := imm.isLt
  have hd := data.isLt
  simp only [packWord, BitVec.toNat_append]
  rw [← Nat.shiftLeft_add_eq_or_of_lt, ← Nat.shiftLeft_add_eq_or_of_lt, ← Nat.shiftLeft_add_eq_or_of_lt]
  · simp only [Nat.shiftLeft_eq, BitVec.toNat_ofNat]
    omega
  all_goals omega

theorem opcField_toNat (w : Word) : (opcField w).toNat = w.toNat / 2 ^ 28 := by
  have := w.isLt
  simp only [opcField, BitVec.extractLsb'_toNat, Nat.shiftRight_eq_div_pow]
  omega

theorem rsvField_toNat (w : Word) : (rsvField w).toNat = w.toNat / 2 ^ 24 % 2 ^ 4 := by
  simp only [rsvField, BitVec.extractLsb'_toNat, Nat.shiftRight_eq_div_pow]

theorem headField_toNat (w : Word) : (headField w).toNat = w.toNat / 2 ^ 24 := by
  have := w.isLt
  simp only [headField, BitVec.extractLsb'_toNat, Nat.shiftRight_eq_div_pow]
  omega

theorem imm16Field_toNat (w : Word) : (imm16Field w).toNat = w.toNat / 2 ^ 8 % 2 ^ 16 := by
  simp only [imm16Field, BitVec.extractLsb'_toNat, Nat.shiftRight_eq_div_pow]

theorem dataField_toNat (w : Word) : (dataField w).toNat = w.toNat % 2 ^ 8 := by
  simp only [dataField, BitVec.extractLsb'_toNat, Nat.shiftRight_eq_div_pow, pow_zero, Nat.div_one]

theorem packWord_fields (opc : BitVec 4) (imm : BitVec 16) (data : Byte) :
    opcField (packWord opc imm data) = opc ∧ rsvField (packWord opc imm data) = 0#4 ∧
      imm16Field (packWord opc imm data) = imm ∧ dataField (packWord opc imm data) = data := by
  have ho := opc.isLt
  have hi := imm.isLt
  have hd := data.isLt
  have hw := packWord_toNat opc imm data
  simp only [← BitVec.toNat_inj, opcField_toNat, rsvField_toNat, imm16Field_toNat, dataField_toNat, hw, BitVec.toNat_ofNat]
  omega

end Sys2Proof
end

