-- ==== Sys2Proof/Laws/Memory.lean ====
section
/-! SUPPORT. The laws of `DEV.MEM`: a cell written reads back, every other cell is left alone, and every operation keeps the
canonical form. -/

namespace Sys2Proof.Machine

@[simp] theorem Memory.read_nil (a : Nat) : Memory.read a [] = none := rfl

theorem Memory.wfFrom_mono {a b : Nat} (h : a ≤ b) : ∀ m, Memory.wfFrom b m = true → Memory.wfFrom a m = true
  | [], _ => rfl
  | (c, v) :: m, hw => by
    simp only [Memory.wfFrom, Bool.and_eq_true, decide_eq_true_eq] at hw ⊢
    exact ⟨by omega, hw.2⟩

/-- In a canonical list nothing is listed below its start. -/
theorem Memory.read_below {a b : Nat} (h : b < a) : ∀ m, Memory.wfFrom a m = true → Memory.read b m = none
  | [], _ => rfl
  | (c, v) :: m, hw => by
    simp only [Memory.wfFrom, Bool.and_eq_true, decide_eq_true_eq] at hw
    rw [Memory.read, if_neg (by omega)]
    exact Memory.read_below (a := c + 1) (by omega) m hw.2

@[simp] theorem Memory.read_write_same (a : Nat) (v : Byte) : ∀ m, Memory.read a (Memory.write a v m) = some v
  | [] => by simp [Memory.write, Memory.read]
  | (b, x) :: m => by
    rw [Memory.write]
    split
    · simp [Memory.read]
    · split
      · simp [Memory.read]
      · rename_i h
        rw [Memory.read, if_neg h, Memory.read_write_same a v m]

theorem Memory.read_write_other {a b : Nat} (h : b ≠ a) (v : Byte) :
    ∀ m, Memory.read b (Memory.write a v m) = Memory.read b m
  | [] => by simp [Memory.write, Memory.read, h]
  | (c, x) :: m => by
    rw [Memory.write]
    split
    · rw [Memory.read, if_neg h]
    · split
      · subst_vars
        rw [Memory.read, if_neg h, Memory.read, if_neg h]
      · rw [Memory.read, Memory.read, Memory.read_write_other h v m]

theorem Memory.wfFrom_write {a lo : Nat} (v : Byte) (h : lo ≤ a) :
    ∀ m, Memory.wfFrom lo m = true → Memory.wfFrom lo (Memory.write a v m) = true
  | [], _ => by simp [Memory.write, Memory.wfFrom, h]
  | (b, x) :: m, hw => by
    have hw' := hw
    simp only [Memory.wfFrom, Bool.and_eq_true, decide_eq_true_eq] at hw
    rw [Memory.write]
    split
    · simp only [Memory.wfFrom, Bool.and_eq_true, decide_eq_true_eq]
      exact ⟨h, by omega, hw.2⟩
    · split
      · subst_vars
        simpa [Memory.wfFrom] using hw
      · simp only [Memory.wfFrom, Bool.and_eq_true, decide_eq_true_eq]
        exact ⟨hw.1, Memory.wfFrom_write v (by omega) m hw.2⟩

/-- A write keeps the canonical form. -/
theorem Memory.wf_write (a : Nat) (v : Byte) (m : List Host.Cell) (h : Memory.wf m = true) :
    Memory.wf (Memory.write a v m) = true :=
  Memory.wfFrom_write v (Nat.zero_le a) m h

theorem Memory.wfFrom_fillFrom (v : Byte) : ∀ n a, Memory.wfFrom a (Memory.fillFrom a v n) = true
  | 0, _ => rfl
  | n + 1, a => by simp [Memory.fillFrom, Memory.wfFrom, Memory.wfFrom_fillFrom v n (a + 1)]

/-- An erased memory is in canonical form. -/
theorem Memory.wf_fill (n : Nat) (v : Byte) : Memory.wf (Memory.fill n v) = true :=
  Memory.wfFrom_fillFrom v n 0

theorem Memory.read_fillFrom (v : Byte) :
    ∀ n a b, Memory.read b (Memory.fillFrom a v n) = if a ≤ b ∧ b < a + n then some v else none
  | 0, a, b => by rw [if_neg (by omega)]; rfl
  | n + 1, a, b => by
    rw [Memory.fillFrom, Memory.read, Memory.read_fillFrom v n (a + 1) b]
    by_cases h : b = a
    · simp [h]
    · rw [if_neg h]
      congr 1
      simp only [eq_iff_iff]
      omega

/-- After an erase every existing cell reads as `v`, and no other is listed. -/
theorem Memory.read_fill (n : Nat) (v : Byte) (a : Nat) :
    Memory.read a (Memory.fill n v) = if a < n then some v else none := by
  simp [Memory.fill, Memory.read_fillFrom]

theorem Memory.below_write {n a : Nat} (v : Byte) (h : a < n) :
    ∀ m, Memory.below n m = true → Memory.below n (Memory.write a v m) = true
  | [], _ => by simp [Memory.below, Memory.write, h]
  | (b, x) :: m, hb => by
    have ih := Memory.below_write v h m
    simp only [Memory.below, List.all_cons, Bool.and_eq_true, decide_eq_true_eq] at hb ih
    rw [Memory.write]
    split
    · simp [Memory.below, h, hb.1]; simpa using hb.2
    · split
      · simp [Memory.below, h]; simpa using hb.2
      · simp only [Memory.below, List.all_cons, Bool.and_eq_true, decide_eq_true_eq]
        exact ⟨hb.1, ih hb.2⟩

theorem Memory.below_fillFrom (v : Byte) : ∀ k a n, a + k ≤ n → Memory.below n (Memory.fillFrom a v k) = true
  | 0, _, _, _ => rfl
  | k + 1, a, n, h => by
    have ih := Memory.below_fillFrom v k (a + 1) n (by omega)
    simp only [Memory.below] at ih
    simp only [Memory.fillFrom, Memory.below, List.all_cons, Bool.and_eq_true, decide_eq_true_eq]
    exact ⟨by omega, ih⟩

theorem Memory.below_fill (n : Nat) (v : Byte) : Memory.below n (Memory.fill n v) = true :=
  Memory.below_fillFrom v n 0 n (by omega)

end Sys2Proof.Machine
end

