-- ==== Sys2Proof/Laws/State.lean ====
section
/-! SUPPORT. What each named update of the state leaves in each field: one lemma per field per update, so that no proof unfolds a
record update. -/

namespace Sys2Proof.Machine

variable (s : State)

@[simp] theorem emit_cfg (e : PinEvent) : (s.emit e).cfg = s.cfg := rfl
@[simp] theorem emit_pending (e : PinEvent) : (s.emit e).pending = s.pending := rfl
@[simp] theorem emit_opc (e : PinEvent) : (s.emit e).opc = s.opc := rfl
@[simp] theorem emit_mode (e : PinEvent) : (s.emit e).mode = s.mode := rfl
@[simp] theorem emit_fault (e : PinEvent) : (s.emit e).fault = s.fault := rfl
@[simp] theorem emit_faultOp (e : PinEvent) : (s.emit e).faultOp = s.faultOp := rfl
@[simp] theorem emit_faultOpc (e : PinEvent) : (s.emit e).faultOpc = s.faultOpc := rfl
@[simp] theorem emit_ddir (e : PinEvent) : (s.emit e).ddir = s.ddir := rfl
@[simp] theorem emit_dout (e : PinEvent) : (s.emit e).dout = s.dout := rfl
@[simp] theorem emit_we (e : PinEvent) : (s.emit e).we = s.we := rfl
@[simp] theorem emit_re (e : PinEvent) : (s.emit e).re = s.re := rfl
@[simp] theorem emit_lem (e : PinEvent) : (s.emit e).lem = s.lem := rfl
@[simp] theorem emit_lel (e : PinEvent) : (s.emit e).lel = s.lel := rfl
@[simp] theorem emit_latM (e : PinEvent) : (s.emit e).latM = s.latM := rfl
@[simp] theorem emit_latL (e : PinEvent) : (s.emit e).latL = s.latL := rfl
@[simp] theorem emit_mem (e : PinEvent) : (s.emit e).mem = s.mem := rfl
@[simp] theorem emit_sdp (e : PinEvent) : (s.emit e).sdp = s.sdp := rfl
@[simp] theorem emit_busy (e : PinEvent) : (s.emit e).busy = s.busy := rfl
@[simp] theorem emit_responses (e : PinEvent) : (s.emit e).responses = s.responses := rfl
@[simp] theorem emit_trace (e : PinEvent) : (s.emit e).trace = s.trace ++ [.event e] := rfl
@[simp] theorem emit_draws (e : PinEvent) : (s.emit e).draws = s.draws := rfl

@[simp] theorem react_cfg (r : Reaction) : (s.react r).cfg = s.cfg := rfl
@[simp] theorem react_pending (r : Reaction) : (s.react r).pending = s.pending := rfl
@[simp] theorem react_opc (r : Reaction) : (s.react r).opc = s.opc := rfl
@[simp] theorem react_mode (r : Reaction) : (s.react r).mode = s.mode := rfl
@[simp] theorem react_fault (r : Reaction) : (s.react r).fault = s.fault := rfl
@[simp] theorem react_faultOp (r : Reaction) : (s.react r).faultOp = s.faultOp := rfl
@[simp] theorem react_faultOpc (r : Reaction) : (s.react r).faultOpc = s.faultOpc := rfl
@[simp] theorem react_ddir (r : Reaction) : (s.react r).ddir = s.ddir := rfl
@[simp] theorem react_dout (r : Reaction) : (s.react r).dout = s.dout := rfl
@[simp] theorem react_we (r : Reaction) : (s.react r).we = s.we := rfl
@[simp] theorem react_re (r : Reaction) : (s.react r).re = s.re := rfl
@[simp] theorem react_lem (r : Reaction) : (s.react r).lem = s.lem := rfl
@[simp] theorem react_lel (r : Reaction) : (s.react r).lel = s.lel := rfl
@[simp] theorem react_latM (r : Reaction) : (s.react r).latM = s.latM := rfl
@[simp] theorem react_latL (r : Reaction) : (s.react r).latL = s.latL := rfl
@[simp] theorem react_mem (r : Reaction) : (s.react r).mem = s.mem := rfl
@[simp] theorem react_sdp (r : Reaction) : (s.react r).sdp = s.sdp := rfl
@[simp] theorem react_busy (r : Reaction) : (s.react r).busy = s.busy := rfl
@[simp] theorem react_responses (r : Reaction) : (s.react r).responses = s.responses := rfl
@[simp] theorem react_trace (r : Reaction) : (s.react r).trace = s.trace ++ [.reaction r] := rfl
@[simp] theorem react_draws (r : Reaction) : (s.react r).draws = s.draws := rfl

@[simp] theorem respond_cfg (r : Response) : (s.respond r).cfg = s.cfg := rfl
@[simp] theorem respond_pending (r : Response) : (s.respond r).pending = s.pending := rfl
@[simp] theorem respond_opc (r : Response) : (s.respond r).opc = s.opc := rfl
@[simp] theorem respond_mode (r : Response) : (s.respond r).mode = s.mode := rfl
@[simp] theorem respond_fault (r : Response) : (s.respond r).fault = s.fault := rfl
@[simp] theorem respond_faultOp (r : Response) : (s.respond r).faultOp = s.faultOp := rfl
@[simp] theorem respond_faultOpc (r : Response) : (s.respond r).faultOpc = s.faultOpc := rfl
@[simp] theorem respond_ddir (r : Response) : (s.respond r).ddir = s.ddir := rfl
@[simp] theorem respond_dout (r : Response) : (s.respond r).dout = s.dout := rfl
@[simp] theorem respond_we (r : Response) : (s.respond r).we = s.we := rfl
@[simp] theorem respond_re (r : Response) : (s.respond r).re = s.re := rfl
@[simp] theorem respond_lem (r : Response) : (s.respond r).lem = s.lem := rfl
@[simp] theorem respond_lel (r : Response) : (s.respond r).lel = s.lel := rfl
@[simp] theorem respond_latM (r : Response) : (s.respond r).latM = s.latM := rfl
@[simp] theorem respond_latL (r : Response) : (s.respond r).latL = s.latL := rfl
@[simp] theorem respond_mem (r : Response) : (s.respond r).mem = s.mem := rfl
@[simp] theorem respond_sdp (r : Response) : (s.respond r).sdp = s.sdp := rfl
@[simp] theorem respond_busy (r : Response) : (s.respond r).busy = s.busy := rfl
@[simp] theorem respond_responses (r : Response) : (s.respond r).responses = s.responses ++ [r] := rfl
@[simp] theorem respond_trace (r : Response) : (s.respond r).trace = s.trace := rfl
@[simp] theorem respond_draws (r : Response) : (s.respond r).draws = s.draws := rfl

@[simp] theorem setDdir_cfg (d : Dir) : (s.setDdir d).cfg = s.cfg := rfl
@[simp] theorem setDdir_pending (d : Dir) : (s.setDdir d).pending = s.pending := rfl
@[simp] theorem setDdir_opc (d : Dir) : (s.setDdir d).opc = s.opc := rfl
@[simp] theorem setDdir_mode (d : Dir) : (s.setDdir d).mode = s.mode := rfl
@[simp] theorem setDdir_fault (d : Dir) : (s.setDdir d).fault = s.fault := rfl
@[simp] theorem setDdir_faultOp (d : Dir) : (s.setDdir d).faultOp = s.faultOp := rfl
@[simp] theorem setDdir_faultOpc (d : Dir) : (s.setDdir d).faultOpc = s.faultOpc := rfl
@[simp] theorem setDdir_ddir (d : Dir) : (s.setDdir d).ddir = d := rfl
@[simp] theorem setDdir_dout (d : Dir) : (s.setDdir d).dout = s.dout := rfl
@[simp] theorem setDdir_we (d : Dir) : (s.setDdir d).we = s.we := rfl
@[simp] theorem setDdir_re (d : Dir) : (s.setDdir d).re = s.re := rfl
@[simp] theorem setDdir_lem (d : Dir) : (s.setDdir d).lem = s.lem := rfl
@[simp] theorem setDdir_lel (d : Dir) : (s.setDdir d).lel = s.lel := rfl
@[simp] theorem setDdir_latM (d : Dir) : (s.setDdir d).latM = s.latM := rfl
@[simp] theorem setDdir_latL (d : Dir) : (s.setDdir d).latL = s.latL := rfl
@[simp] theorem setDdir_mem (d : Dir) : (s.setDdir d).mem = s.mem := rfl
@[simp] theorem setDdir_sdp (d : Dir) : (s.setDdir d).sdp = s.sdp := rfl
@[simp] theorem setDdir_busy (d : Dir) : (s.setDdir d).busy = s.busy := rfl
@[simp] theorem setDdir_responses (d : Dir) : (s.setDdir d).responses = s.responses := rfl
@[simp] theorem setDdir_trace (d : Dir) : (s.setDdir d).trace = s.trace := rfl
@[simp] theorem setDdir_draws (d : Dir) : (s.setDdir d).draws = s.draws := rfl

@[simp] theorem setDout_cfg (v : Byte) : (s.setDout v).cfg = s.cfg := rfl
@[simp] theorem setDout_pending (v : Byte) : (s.setDout v).pending = s.pending := rfl
@[simp] theorem setDout_opc (v : Byte) : (s.setDout v).opc = s.opc := rfl
@[simp] theorem setDout_mode (v : Byte) : (s.setDout v).mode = s.mode := rfl
@[simp] theorem setDout_fault (v : Byte) : (s.setDout v).fault = s.fault := rfl
@[simp] theorem setDout_faultOp (v : Byte) : (s.setDout v).faultOp = s.faultOp := rfl
@[simp] theorem setDout_faultOpc (v : Byte) : (s.setDout v).faultOpc = s.faultOpc := rfl
@[simp] theorem setDout_ddir (v : Byte) : (s.setDout v).ddir = s.ddir := rfl
@[simp] theorem setDout_dout (v : Byte) : (s.setDout v).dout = v := rfl
@[simp] theorem setDout_we (v : Byte) : (s.setDout v).we = s.we := rfl
@[simp] theorem setDout_re (v : Byte) : (s.setDout v).re = s.re := rfl
@[simp] theorem setDout_lem (v : Byte) : (s.setDout v).lem = s.lem := rfl
@[simp] theorem setDout_lel (v : Byte) : (s.setDout v).lel = s.lel := rfl
@[simp] theorem setDout_latM (v : Byte) : (s.setDout v).latM = s.latM := rfl
@[simp] theorem setDout_latL (v : Byte) : (s.setDout v).latL = s.latL := rfl
@[simp] theorem setDout_mem (v : Byte) : (s.setDout v).mem = s.mem := rfl
@[simp] theorem setDout_sdp (v : Byte) : (s.setDout v).sdp = s.sdp := rfl
@[simp] theorem setDout_busy (v : Byte) : (s.setDout v).busy = s.busy := rfl
@[simp] theorem setDout_responses (v : Byte) : (s.setDout v).responses = s.responses := rfl
@[simp] theorem setDout_trace (v : Byte) : (s.setDout v).trace = s.trace := rfl
@[simp] theorem setDout_draws (v : Byte) : (s.setDout v).draws = s.draws := rfl

@[simp] theorem setMode_cfg (m : Mode) : (s.setMode m).cfg = s.cfg := rfl
@[simp] theorem setMode_pending (m : Mode) : (s.setMode m).pending = s.pending := rfl
@[simp] theorem setMode_opc (m : Mode) : (s.setMode m).opc = s.opc := rfl
@[simp] theorem setMode_mode (m : Mode) : (s.setMode m).mode = m := rfl
@[simp] theorem setMode_fault (m : Mode) : (s.setMode m).fault = s.fault := rfl
@[simp] theorem setMode_faultOp (m : Mode) : (s.setMode m).faultOp = s.faultOp := rfl
@[simp] theorem setMode_faultOpc (m : Mode) : (s.setMode m).faultOpc = s.faultOpc := rfl
@[simp] theorem setMode_ddir (m : Mode) : (s.setMode m).ddir = s.ddir := rfl
@[simp] theorem setMode_dout (m : Mode) : (s.setMode m).dout = s.dout := rfl
@[simp] theorem setMode_we (m : Mode) : (s.setMode m).we = s.we := rfl
@[simp] theorem setMode_re (m : Mode) : (s.setMode m).re = s.re := rfl
@[simp] theorem setMode_lem (m : Mode) : (s.setMode m).lem = s.lem := rfl
@[simp] theorem setMode_lel (m : Mode) : (s.setMode m).lel = s.lel := rfl
@[simp] theorem setMode_latM (m : Mode) : (s.setMode m).latM = s.latM := rfl
@[simp] theorem setMode_latL (m : Mode) : (s.setMode m).latL = s.latL := rfl
@[simp] theorem setMode_mem (m : Mode) : (s.setMode m).mem = s.mem := rfl
@[simp] theorem setMode_sdp (m : Mode) : (s.setMode m).sdp = s.sdp := rfl
@[simp] theorem setMode_busy (m : Mode) : (s.setMode m).busy = s.busy := rfl
@[simp] theorem setMode_responses (m : Mode) : (s.setMode m).responses = s.responses := rfl
@[simp] theorem setMode_trace (m : Mode) : (s.setMode m).trace = s.trace := rfl
@[simp] theorem setMode_draws (m : Mode) : (s.setMode m).draws = s.draws := rfl

@[simp] theorem advanceDraws_cfg : s.advanceDraws.cfg = s.cfg := rfl
@[simp] theorem advanceDraws_pending : s.advanceDraws.pending = s.pending := rfl
@[simp] theorem advanceDraws_opc : s.advanceDraws.opc = s.opc := rfl
@[simp] theorem advanceDraws_mode : s.advanceDraws.mode = s.mode := rfl
@[simp] theorem advanceDraws_fault : s.advanceDraws.fault = s.fault := rfl
@[simp] theorem advanceDraws_faultOp : s.advanceDraws.faultOp = s.faultOp := rfl
@[simp] theorem advanceDraws_faultOpc : s.advanceDraws.faultOpc = s.faultOpc := rfl
@[simp] theorem advanceDraws_ddir : s.advanceDraws.ddir = s.ddir := rfl
@[simp] theorem advanceDraws_dout : s.advanceDraws.dout = s.dout := rfl
@[simp] theorem advanceDraws_we : s.advanceDraws.we = s.we := rfl
@[simp] theorem advanceDraws_re : s.advanceDraws.re = s.re := rfl
@[simp] theorem advanceDraws_lem : s.advanceDraws.lem = s.lem := rfl
@[simp] theorem advanceDraws_lel : s.advanceDraws.lel = s.lel := rfl
@[simp] theorem advanceDraws_latM : s.advanceDraws.latM = s.latM := rfl
@[simp] theorem advanceDraws_latL : s.advanceDraws.latL = s.latL := rfl
@[simp] theorem advanceDraws_mem : s.advanceDraws.mem = s.mem := rfl
@[simp] theorem advanceDraws_sdp : s.advanceDraws.sdp = s.sdp := rfl
@[simp] theorem advanceDraws_busy : s.advanceDraws.busy = s.busy := rfl
@[simp] theorem advanceDraws_responses : s.advanceDraws.responses = s.responses := rfl
@[simp] theorem advanceDraws_trace : s.advanceDraws.trace = s.trace := rfl
@[simp] theorem advanceDraws_draws : s.advanceDraws.draws = s.draws + 1 := rfl

@[simp] theorem raiseFault_cfg (c : FaultCode) (w : Word) : (raiseFault c w s).cfg = s.cfg := rfl
@[simp] theorem raiseFault_pending (c : FaultCode) (w : Word) : (raiseFault c w s).pending = s.pending := rfl
@[simp] theorem raiseFault_opc (c : FaultCode) (w : Word) : (raiseFault c w s).opc = s.opc := rfl
@[simp] theorem raiseFault_mode (c : FaultCode) (w : Word) : (raiseFault c w s).mode = s.mode := rfl
@[simp] theorem raiseFault_fault (c : FaultCode) (w : Word) : (raiseFault c w s).fault = c := rfl
@[simp] theorem raiseFault_faultOp (c : FaultCode) (w : Word) : (raiseFault c w s).faultOp = w := rfl
@[simp] theorem raiseFault_faultOpc (c : FaultCode) (w : Word) : (raiseFault c w s).faultOpc = s.opc := rfl
@[simp] theorem raiseFault_ddir (c : FaultCode) (w : Word) : (raiseFault c w s).ddir = s.ddir := rfl
@[simp] theorem raiseFault_dout (c : FaultCode) (w : Word) : (raiseFault c w s).dout = s.dout := rfl
@[simp] theorem raiseFault_we (c : FaultCode) (w : Word) : (raiseFault c w s).we = s.we := rfl
@[simp] theorem raiseFault_re (c : FaultCode) (w : Word) : (raiseFault c w s).re = s.re := rfl
@[simp] theorem raiseFault_lem (c : FaultCode) (w : Word) : (raiseFault c w s).lem = s.lem := rfl
@[simp] theorem raiseFault_lel (c : FaultCode) (w : Word) : (raiseFault c w s).lel = s.lel := rfl
@[simp] theorem raiseFault_latM (c : FaultCode) (w : Word) : (raiseFault c w s).latM = s.latM := rfl
@[simp] theorem raiseFault_latL (c : FaultCode) (w : Word) : (raiseFault c w s).latL = s.latL := rfl
@[simp] theorem raiseFault_mem (c : FaultCode) (w : Word) : (raiseFault c w s).mem = s.mem := rfl
@[simp] theorem raiseFault_sdp (c : FaultCode) (w : Word) : (raiseFault c w s).sdp = s.sdp := rfl
@[simp] theorem raiseFault_busy (c : FaultCode) (w : Word) : (raiseFault c w s).busy = s.busy := rfl
@[simp] theorem raiseFault_responses (c : FaultCode) (w : Word) : (raiseFault c w s).responses = s.responses ++ [.faulted c] := rfl
@[simp] theorem raiseFault_trace (c : FaultCode) (w : Word) : (raiseFault c w s).trace = s.trace := rfl
@[simp] theorem raiseFault_draws (c : FaultCode) (w : Word) : (raiseFault c w s).draws = s.draws := rfl

@[simp] theorem complete_cfg (r : Response) : (complete r s).cfg = s.cfg := rfl
@[simp] theorem complete_pending (r : Response) : (complete r s).pending = s.pending := rfl
@[simp] theorem complete_opc (r : Response) : (complete r s).opc = s.opc + 1 := rfl
@[simp] theorem complete_mode (r : Response) : (complete r s).mode = s.mode := rfl
@[simp] theorem complete_fault (r : Response) : (complete r s).fault = s.fault := rfl
@[simp] theorem complete_faultOp (r : Response) : (complete r s).faultOp = s.faultOp := rfl
@[simp] theorem complete_faultOpc (r : Response) : (complete r s).faultOpc = s.faultOpc := rfl
@[simp] theorem complete_ddir (r : Response) : (complete r s).ddir = s.ddir := rfl
@[simp] theorem complete_dout (r : Response) : (complete r s).dout = s.dout := rfl
@[simp] theorem complete_we (r : Response) : (complete r s).we = s.we := rfl
@[simp] theorem complete_re (r : Response) : (complete r s).re = s.re := rfl
@[simp] theorem complete_lem (r : Response) : (complete r s).lem = s.lem := rfl
@[simp] theorem complete_lel (r : Response) : (complete r s).lel = s.lel := rfl
@[simp] theorem complete_latM (r : Response) : (complete r s).latM = s.latM := rfl
@[simp] theorem complete_latL (r : Response) : (complete r s).latL = s.latL := rfl
@[simp] theorem complete_mem (r : Response) : (complete r s).mem = s.mem := rfl
@[simp] theorem complete_sdp (r : Response) : (complete r s).sdp = s.sdp := rfl
@[simp] theorem complete_busy (r : Response) : (complete r s).busy = s.busy := rfl
@[simp] theorem complete_responses (r : Response) : (complete r s).responses = s.responses ++ [r] := rfl
@[simp] theorem complete_trace (r : Response) : (complete r s).trace = s.trace := rfl
@[simp] theorem complete_draws (r : Response) : (complete r s).draws = s.draws := rfl

@[simp] theorem memWrite_cfg (a : Nat) (v : Byte) : (memWrite a v s).cfg = s.cfg := rfl
@[simp] theorem memWrite_pending (a : Nat) (v : Byte) : (memWrite a v s).pending = s.pending := rfl
@[simp] theorem memWrite_opc (a : Nat) (v : Byte) : (memWrite a v s).opc = s.opc := rfl
@[simp] theorem memWrite_mode (a : Nat) (v : Byte) : (memWrite a v s).mode = s.mode := rfl
@[simp] theorem memWrite_fault (a : Nat) (v : Byte) : (memWrite a v s).fault = s.fault := rfl
@[simp] theorem memWrite_faultOp (a : Nat) (v : Byte) : (memWrite a v s).faultOp = s.faultOp := rfl
@[simp] theorem memWrite_faultOpc (a : Nat) (v : Byte) : (memWrite a v s).faultOpc = s.faultOpc := rfl
@[simp] theorem memWrite_ddir (a : Nat) (v : Byte) : (memWrite a v s).ddir = s.ddir := rfl
@[simp] theorem memWrite_dout (a : Nat) (v : Byte) : (memWrite a v s).dout = s.dout := rfl
@[simp] theorem memWrite_we (a : Nat) (v : Byte) : (memWrite a v s).we = s.we := rfl
@[simp] theorem memWrite_re (a : Nat) (v : Byte) : (memWrite a v s).re = s.re := rfl
@[simp] theorem memWrite_lem (a : Nat) (v : Byte) : (memWrite a v s).lem = s.lem := rfl
@[simp] theorem memWrite_lel (a : Nat) (v : Byte) : (memWrite a v s).lel = s.lel := rfl
@[simp] theorem memWrite_latM (a : Nat) (v : Byte) : (memWrite a v s).latM = s.latM := rfl
@[simp] theorem memWrite_latL (a : Nat) (v : Byte) : (memWrite a v s).latL = s.latL := rfl
@[simp] theorem memWrite_mem (a : Nat) (v : Byte) : (memWrite a v s).mem = memAfterWrite a v s := rfl
@[simp] theorem memWrite_sdp (a : Nat) (v : Byte) : (memWrite a v s).sdp = s.sdp := rfl
@[simp] theorem memWrite_busy (a : Nat) (v : Byte) : (memWrite a v s).busy = (s.cfg.strictWriteCycle || s.busy) := rfl
@[simp] theorem memWrite_responses (a : Nat) (v : Byte) : (memWrite a v s).responses = s.responses := rfl
@[simp] theorem memWrite_trace (a : Nat) (v : Byte) : (memWrite a v s).trace = s.trace := rfl
@[simp] theorem memWrite_draws (a : Nat) (v : Byte) : (memWrite a v s).draws = drawsAfterWrite s := rfl

@[simp] theorem eraseDevice_cfg : (eraseDevice s).cfg = s.cfg := rfl
@[simp] theorem eraseDevice_pending : (eraseDevice s).pending = s.pending := rfl
@[simp] theorem eraseDevice_opc : (eraseDevice s).opc = s.opc := rfl
@[simp] theorem eraseDevice_mode : (eraseDevice s).mode = s.mode := rfl
@[simp] theorem eraseDevice_fault : (eraseDevice s).fault = s.fault := rfl
@[simp] theorem eraseDevice_faultOp : (eraseDevice s).faultOp = s.faultOp := rfl
@[simp] theorem eraseDevice_faultOpc : (eraseDevice s).faultOpc = s.faultOpc := rfl
@[simp] theorem eraseDevice_ddir : (eraseDevice s).ddir = s.ddir := rfl
@[simp] theorem eraseDevice_dout : (eraseDevice s).dout = s.dout := rfl
@[simp] theorem eraseDevice_we : (eraseDevice s).we = s.we := rfl
@[simp] theorem eraseDevice_re : (eraseDevice s).re = s.re := rfl
@[simp] theorem eraseDevice_lem : (eraseDevice s).lem = s.lem := rfl
@[simp] theorem eraseDevice_lel : (eraseDevice s).lel = s.lel := rfl
@[simp] theorem eraseDevice_latM : (eraseDevice s).latM = s.latM := rfl
@[simp] theorem eraseDevice_latL : (eraseDevice s).latL = s.latL := rfl
@[simp] theorem eraseDevice_mem : (eraseDevice s).mem = Memory.fill s.cfg.devSize 0xFF#8 := rfl
@[simp] theorem eraseDevice_sdp : (eraseDevice s).sdp = sdpAfterErase s := rfl
@[simp] theorem eraseDevice_busy : (eraseDevice s).busy = false := rfl
@[simp] theorem eraseDevice_responses : (eraseDevice s).responses = s.responses := rfl
@[simp] theorem eraseDevice_trace : (eraseDevice s).trace = s.trace := rfl
@[simp] theorem eraseDevice_draws : (eraseDevice s).draws = drawsAfterErase s := rfl

@[simp] theorem setProtection_cfg (p : Sdp) : (setProtection p s).cfg = s.cfg := rfl
@[simp] theorem setProtection_pending (p : Sdp) : (setProtection p s).pending = s.pending := rfl
@[simp] theorem setProtection_opc (p : Sdp) : (setProtection p s).opc = s.opc := rfl
@[simp] theorem setProtection_mode (p : Sdp) : (setProtection p s).mode = s.mode := rfl
@[simp] theorem setProtection_fault (p : Sdp) : (setProtection p s).fault = s.fault := rfl
@[simp] theorem setProtection_faultOp (p : Sdp) : (setProtection p s).faultOp = s.faultOp := rfl
@[simp] theorem setProtection_faultOpc (p : Sdp) : (setProtection p s).faultOpc = s.faultOpc := rfl
@[simp] theorem setProtection_ddir (p : Sdp) : (setProtection p s).ddir = s.ddir := rfl
@[simp] theorem setProtection_dout (p : Sdp) : (setProtection p s).dout = s.dout := rfl
@[simp] theorem setProtection_we (p : Sdp) : (setProtection p s).we = s.we := rfl
@[simp] theorem setProtection_re (p : Sdp) : (setProtection p s).re = s.re := rfl
@[simp] theorem setProtection_lem (p : Sdp) : (setProtection p s).lem = s.lem := rfl
@[simp] theorem setProtection_lel (p : Sdp) : (setProtection p s).lel = s.lel := rfl
@[simp] theorem setProtection_latM (p : Sdp) : (setProtection p s).latM = s.latM := rfl
@[simp] theorem setProtection_latL (p : Sdp) : (setProtection p s).latL = s.latL := rfl
@[simp] theorem setProtection_mem (p : Sdp) : (setProtection p s).mem = s.mem := rfl
@[simp] theorem setProtection_sdp (p : Sdp) : (setProtection p s).sdp = some p := rfl
@[simp] theorem setProtection_busy (p : Sdp) : (setProtection p s).busy = false := rfl
@[simp] theorem setProtection_responses (p : Sdp) : (setProtection p s).responses = s.responses := rfl
@[simp] theorem setProtection_trace (p : Sdp) : (setProtection p s).trace = s.trace := rfl
@[simp] theorem setProtection_draws (p : Sdp) : (setProtection p s).draws = s.draws := rfl

@[simp] theorem endWriteCycle_cfg (n : Nat) : (endWriteCycle n s).cfg = s.cfg := rfl
@[simp] theorem endWriteCycle_pending (n : Nat) : (endWriteCycle n s).pending = s.pending := rfl
@[simp] theorem endWriteCycle_opc (n : Nat) : (endWriteCycle n s).opc = s.opc := rfl
@[simp] theorem endWriteCycle_mode (n : Nat) : (endWriteCycle n s).mode = s.mode := rfl
@[simp] theorem endWriteCycle_fault (n : Nat) : (endWriteCycle n s).fault = s.fault := rfl
@[simp] theorem endWriteCycle_faultOp (n : Nat) : (endWriteCycle n s).faultOp = s.faultOp := rfl
@[simp] theorem endWriteCycle_faultOpc (n : Nat) : (endWriteCycle n s).faultOpc = s.faultOpc := rfl
@[simp] theorem endWriteCycle_ddir (n : Nat) : (endWriteCycle n s).ddir = s.ddir := rfl
@[simp] theorem endWriteCycle_dout (n : Nat) : (endWriteCycle n s).dout = s.dout := rfl
@[simp] theorem endWriteCycle_we (n : Nat) : (endWriteCycle n s).we = s.we := rfl
@[simp] theorem endWriteCycle_re (n : Nat) : (endWriteCycle n s).re = s.re := rfl
@[simp] theorem endWriteCycle_lem (n : Nat) : (endWriteCycle n s).lem = s.lem := rfl
@[simp] theorem endWriteCycle_lel (n : Nat) : (endWriteCycle n s).lel = s.lel := rfl
@[simp] theorem endWriteCycle_latM (n : Nat) : (endWriteCycle n s).latM = s.latM := rfl
@[simp] theorem endWriteCycle_latL (n : Nat) : (endWriteCycle n s).latL = s.latL := rfl
@[simp] theorem endWriteCycle_mem (n : Nat) : (endWriteCycle n s).mem = s.mem := rfl
@[simp] theorem endWriteCycle_sdp (n : Nat) : (endWriteCycle n s).sdp = s.sdp := rfl
@[simp] theorem endWriteCycle_busy (n : Nat) : (endWriteCycle n s).busy = if s.cfg.strictWriteCycle ∧ s.cfg.tWcMs ≤ n then false else s.busy := rfl
@[simp] theorem endWriteCycle_responses (n : Nat) : (endWriteCycle n s).responses = s.responses := rfl
@[simp] theorem endWriteCycle_trace (n : Nat) : (endWriteCycle n s).trace = s.trace := rfl
@[simp] theorem endWriteCycle_draws (n : Nat) : (endWriteCycle n s).draws = s.draws := rfl

@[simp] theorem setLine_cfg (l : Line) (c : ControlLine) : (s.setLine l c).cfg = s.cfg := by cases l <;> rfl
@[simp] theorem setLine_pending (l : Line) (c : ControlLine) : (s.setLine l c).pending = s.pending := by cases l <;> rfl
@[simp] theorem setLine_opc (l : Line) (c : ControlLine) : (s.setLine l c).opc = s.opc := by cases l <;> rfl
@[simp] theorem setLine_mode (l : Line) (c : ControlLine) : (s.setLine l c).mode = s.mode := by cases l <;> rfl
@[simp] theorem setLine_fault (l : Line) (c : ControlLine) : (s.setLine l c).fault = s.fault := by cases l <;> rfl
@[simp] theorem setLine_faultOp (l : Line) (c : ControlLine) : (s.setLine l c).faultOp = s.faultOp := by cases l <;> rfl
@[simp] theorem setLine_faultOpc (l : Line) (c : ControlLine) : (s.setLine l c).faultOpc = s.faultOpc := by cases l <;> rfl
@[simp] theorem setLine_ddir (l : Line) (c : ControlLine) : (s.setLine l c).ddir = s.ddir := by cases l <;> rfl
@[simp] theorem setLine_dout (l : Line) (c : ControlLine) : (s.setLine l c).dout = s.dout := by cases l <;> rfl
@[simp] theorem setLine_latM (l : Line) (c : ControlLine) : (s.setLine l c).latM = s.latM := by cases l <;> rfl
@[simp] theorem setLine_latL (l : Line) (c : ControlLine) : (s.setLine l c).latL = s.latL := by cases l <;> rfl
@[simp] theorem setLine_mem (l : Line) (c : ControlLine) : (s.setLine l c).mem = s.mem := by cases l <;> rfl
@[simp] theorem setLine_sdp (l : Line) (c : ControlLine) : (s.setLine l c).sdp = s.sdp := by cases l <;> rfl
@[simp] theorem setLine_busy (l : Line) (c : ControlLine) : (s.setLine l c).busy = s.busy := by cases l <;> rfl
@[simp] theorem setLine_responses (l : Line) (c : ControlLine) : (s.setLine l c).responses = s.responses := by cases l <;> rfl
@[simp] theorem setLine_trace (l : Line) (c : ControlLine) : (s.setLine l c).trace = s.trace := by cases l <;> rfl
@[simp] theorem setLine_draws (l : Line) (c : ControlLine) : (s.setLine l c).draws = s.draws := by cases l <;> rfl

@[simp] theorem setLatch_cfg (x : LatchId) (v : Option Byte) : (s.setLatch x v).cfg = s.cfg := by cases x <;> rfl
@[simp] theorem setLatch_pending (x : LatchId) (v : Option Byte) : (s.setLatch x v).pending = s.pending := by cases x <;> rfl
@[simp] theorem setLatch_opc (x : LatchId) (v : Option Byte) : (s.setLatch x v).opc = s.opc := by cases x <;> rfl
@[simp] theorem setLatch_mode (x : LatchId) (v : Option Byte) : (s.setLatch x v).mode = s.mode := by cases x <;> rfl
@[simp] theorem setLatch_fault (x : LatchId) (v : Option Byte) : (s.setLatch x v).fault = s.fault := by cases x <;> rfl
@[simp] theorem setLatch_faultOp (x : LatchId) (v : Option Byte) : (s.setLatch x v).faultOp = s.faultOp := by cases x <;> rfl
@[simp] theorem setLatch_faultOpc (x : LatchId) (v : Option Byte) : (s.setLatch x v).faultOpc = s.faultOpc := by cases x <;> rfl
@[simp] theorem setLatch_ddir (x : LatchId) (v : Option Byte) : (s.setLatch x v).ddir = s.ddir := by cases x <;> rfl
@[simp] theorem setLatch_dout (x : LatchId) (v : Option Byte) : (s.setLatch x v).dout = s.dout := by cases x <;> rfl
@[simp] theorem setLatch_we (x : LatchId) (v : Option Byte) : (s.setLatch x v).we = s.we := by cases x <;> rfl
@[simp] theorem setLatch_re (x : LatchId) (v : Option Byte) : (s.setLatch x v).re = s.re := by cases x <;> rfl
@[simp] theorem setLatch_lem (x : LatchId) (v : Option Byte) : (s.setLatch x v).lem = s.lem := by cases x <;> rfl
@[simp] theorem setLatch_lel (x : LatchId) (v : Option Byte) : (s.setLatch x v).lel = s.lel := by cases x <;> rfl
@[simp] theorem setLatch_mem (x : LatchId) (v : Option Byte) : (s.setLatch x v).mem = s.mem := by cases x <;> rfl
@[simp] theorem setLatch_sdp (x : LatchId) (v : Option Byte) : (s.setLatch x v).sdp = s.sdp := by cases x <;> rfl
@[simp] theorem setLatch_busy (x : LatchId) (v : Option Byte) : (s.setLatch x v).busy = s.busy := by cases x <;> rfl
@[simp] theorem setLatch_responses (x : LatchId) (v : Option Byte) : (s.setLatch x v).responses = s.responses := by cases x <;> rfl
@[simp] theorem setLatch_trace (x : LatchId) (v : Option Byte) : (s.setLatch x v).trace = s.trace := by cases x <;> rfl
@[simp] theorem setLatch_draws (x : LatchId) (v : Option Byte) : (s.setLatch x v).draws = s.draws := by cases x <;> rfl

@[simp] theorem setLine_we_we (c : ControlLine) : (s.setLine .we c).we = c := rfl
@[simp] theorem setLine_we_re (c : ControlLine) : (s.setLine .we c).re = s.re := rfl
@[simp] theorem setLine_we_lem (c : ControlLine) : (s.setLine .we c).lem = s.lem := rfl
@[simp] theorem setLine_we_lel (c : ControlLine) : (s.setLine .we c).lel = s.lel := rfl
@[simp] theorem setLine_re_we (c : ControlLine) : (s.setLine .re c).we = s.we := rfl
@[simp] theorem setLine_re_re (c : ControlLine) : (s.setLine .re c).re = c := rfl
@[simp] theorem setLine_re_lem (c : ControlLine) : (s.setLine .re c).lem = s.lem := rfl
@[simp] theorem setLine_re_lel (c : ControlLine) : (s.setLine .re c).lel = s.lel := rfl
@[simp] theorem setLine_lem_we (c : ControlLine) : (s.setLine .lem c).we = s.we := rfl
@[simp] theorem setLine_lem_re (c : ControlLine) : (s.setLine .lem c).re = s.re := rfl
@[simp] theorem setLine_lem_lem (c : ControlLine) : (s.setLine .lem c).lem = c := rfl
@[simp] theorem setLine_lem_lel (c : ControlLine) : (s.setLine .lem c).lel = s.lel := rfl
@[simp] theorem setLine_lel_we (c : ControlLine) : (s.setLine .lel c).we = s.we := rfl
@[simp] theorem setLine_lel_re (c : ControlLine) : (s.setLine .lel c).re = s.re := rfl
@[simp] theorem setLine_lel_lem (c : ControlLine) : (s.setLine .lel c).lem = s.lem := rfl
@[simp] theorem setLine_lel_lel (c : ControlLine) : (s.setLine .lel c).lel = c := rfl
@[simp] theorem setLatch_msb_latM (v : Option Byte) : (s.setLatch .msb v).latM = v := rfl
@[simp] theorem setLatch_msb_latL (v : Option Byte) : (s.setLatch .msb v).latL = s.latL := rfl
@[simp] theorem setLatch_lsb_latM (v : Option Byte) : (s.setLatch .lsb v).latM = s.latM := rfl
@[simp] theorem setLatch_lsb_latL (v : Option Byte) : (s.setLatch .lsb v).latL = v := rfl
@[simp] theorem line_we : s.line .we = s.we := rfl
@[simp] theorem line_re : s.line .re = s.re := rfl
@[simp] theorem line_lem : s.line .lem = s.lem := rfl
@[simp] theorem line_lel : s.line .lel = s.lel := rfl
@[simp] theorem line_setLine_self (l : Line) (c : ControlLine) : (s.setLine l c).line l = c := by cases l <;> rfl

end Sys2Proof.Machine
end

