-- ==== Sys2Proof/Laws/Ops.lean ====
section
/-! SUPPORT. What each shared operation does, said once: the pieces of an operation (`Micro`), the frame every operation runs
in, the latch pair, the two bus cycles and the command sequence. -/

namespace Sys2Proof.Machine

@[simp] theorem Micro.andThen_done {α β : Type} (a : α) (s : State) (k : α → State → Micro β) :
    (Micro.done a s).andThen k = k a s := rfl

@[simp] theorem Micro.andThen_raised {α β : Type} (c : FaultCode) (s : State) (k : α → State → Micro β) :
    (Micro.raised c s : Micro α).andThen k = .raised c s := rfl

@[simp] theorem Micro.andThen_stuck {α β : Type} (f : Fault) (k : α → State → Micro β) :
    (Micro.stuck f : Micro α).andThen k = .stuck f := rfl

@[simp] theorem finish_done (w : Word) (r : Response) (s : State) : finish w (.done r s) = .next (complete r s) := rfl

/-- No check of a list fails. -/
theorem firstFault_eq_none {l : List (Bool × FaultCode)} (h : firstFault l = none) : ∀ p ∈ l, p.1 = false := by
  induction l with
  | nil => intro p hp; cases hp
  | cons q l ih =>
    obtain ⟨b, c⟩ := q
    cases b with
    | true => cases h
    | false => exact fun p hp => (List.mem_cons.mp hp).elim (fun e => e ▸ rfl) (ih h p)

/-- The fault of a list of checks is the fault of one that fails. -/
theorem firstFault_eq_some {l : List (Bool × FaultCode)} {c : FaultCode} (h : firstFault l = some c) :
    (true, c) ∈ l := by
  induction l with
  | nil => cases h
  | cons q l ih =>
    obtain ⟨b, e⟩ := q
    cases b with
    | true => cases h; exact List.mem_cons_self
    | false => exact List.mem_cons_of_mem _ (ih h)

/-- A halted block only answers `Refused`. -/
theorem operation_halted (w : Word) (checks : State → Option FaultCode) (body : State → Micro Response) {s : State}
    (h : s.fault ≠ .none) : operation w checks body s = .next (s.respond .refused) := by
  simp [operation, h]

/-- A check that fails raises its fault and nothing else. -/
theorem operation_checked (w : Word) {checks : State → Option FaultCode} (body : State → Micro Response) {s : State}
    {c : FaultCode} (h : s.fault = .none) (hc : checks s = some c) :
    operation w checks body s = .next (raiseFault c w s) := by
  simp [operation, h, hc]

/-- When the checks pass the operation is its body. -/
theorem operation_passed (w : Word) {checks : State → Option FaultCode} (body : State → Micro Response) {s : State}
    (h : s.fault = .none) (hc : checks s = none) : operation w checks body s = finish w (body s) := by
  simp [operation, h, hc]

/-- Everything an operation that goes on can have done: it was refused, it raised the fault of a check, its body completed, or its
body raised a fault. -/
theorem operation_next {w : Word} {checks : State → Option FaultCode} {body : State → Micro Response} {s t : State}
    (h : operation w checks body s = .next t) :
    (s.fault ≠ .none ∧ t = s.respond .refused) ∨
      (s.fault = .none ∧ ∃ c, checks s = some c ∧ t = raiseFault c w s) ∨
      (s.fault = .none ∧ checks s = none ∧ ∃ r s', body s = .done r s' ∧ t = complete r s') ∨
      (s.fault = .none ∧ checks s = none ∧ ∃ c s', body s = .raised c s' ∧ t = raiseFault c w s') := by
  unfold operation at h
  split at h
  · rename_i hf
    cases h
    exact .inl ⟨hf, rfl⟩
  · rename_i hf
    have hf : s.fault = .none := not_not.mp hf
    split at h
    · rename_i c hc
      cases h
      exact .inr (.inl ⟨hf, c, hc, rfl⟩)
    · rename_i hc
      cases hb : body s with
      | done r s' =>
        rw [hb] at h
        cases h
        exact .inr (.inr (.inl ⟨hf, hc, r, s', rfl, rfl⟩))
      | raised c s' =>
        rw [hb] at h
        cases h
        exact .inr (.inr (.inr ⟨hf, hc, c, s', rfl, rfl⟩))
      | stuck f =>
        rw [hb] at h
        cases h

/-- An idle line is not active. -/
@[simp] theorem idle_active : ControlLine.active ⟨.output, .deasserted⟩ = false := rfl

/-- `LATCH_ADDR(a)` from a driven data port with idle strobes and no device driving (40 R113). -/
theorem latchAddr_done (a : Addr) {s : State} (hd : s.ddir = .output) (hm : s.lem.Idle) (hl : s.lel.Idle)
    (hr : s.re.active = false) :
    latchAddr a s = .done () { s with
      dout := addrLow a
      latM := some (addrHigh a)
      latL := some (addrLow a)
      trace := s.trace ++ latchTrace a } := by
  obtain ⟨cfg, pending, opc, mode, fault, faultOp, faultOpc, ddir, dout, we, re, lem, lel, latM, latL, mem, sdp, busy,
    responses, trace, draws⟩ := s
  simp only [ControlLine.Idle] at hd hm hl hr
  subst hd hm hl
  simp [latchAddr, latchByte, pWrite, strobe, strobeLine, pEnable, pDisable, checkContention, State.contention, captureLatch,
    State.setLine, State.setLatch, State.setDout, State.emit, State.react, State.line, hr, latchTrace]

/-- The device address after `LATCH_ADDR(a)` is that of `a` (10 R32, 40 R113). -/
theorem joinAddr_slices (a : Addr) : joinAddr (addrHigh a) (addrLow a) = a := by
  refine BitVec.eq_of_getLsbD_eq fun i hi => ?_
  rw [joinAddr, BitVec.getLsbD_append, addrHigh, addrLow, BitVec.getLsbD_extractLsb', BitVec.getLsbD_extractLsb']
  split
  · simp_all
  · rw [show 8 + (i - 8) = i by omega]
    simp [show i - 8 < 8 by omega]

/-- `WRITE_CYCLE(a, d, kind)` on an idle bus (40 R115). -/
theorem writeCycle_done (a : Addr) (d : Byte) (kind : CycleKind) {s : State} {da : Nat} (hd : s.ddir = .output)
    (hi : s.LinesIdle) (ha : s.CellAt a da) :
    writeCycle a d kind s = .done () (deviceWrite kind da { s with
      dout := d
      latM := some (addrHigh a)
      latL := some (addrLow a)
      trace := s.trace ++ latchTrace a ++
        [.event (.asserts .we), .reaction (.devAddr da), .event (.drive d), .event (.deasserts .we)] }) := by
  obtain ⟨hw, hr, hm, hl⟩ := hi
  have hra : s.re.active = false := by rw [hr]; rfl
  rw [writeCycle, if_pos (by simp [State.linesDeasserted, hw, hr, hm, hl]), latchAddr_done a hd hm hl hra]
  obtain ⟨cfg, pending, opc, mode, fault, faultOp, faultOpc, ddir, dout, we, re, lem, lel, latM, latL, mem, sdp, busy,
    responses, trace, draws⟩ := s
  simp only [ControlLine.Idle, State.CellAt] at hd hw hr hm hl ha
  subst hd hw hr hm hl
  simp [pEnable, checkContention, State.contention, State.setLine, State.emit, State.line, State.deviceAddr,
    State.latchedAddr, joinAddr_slices, ha, pWrite, State.react, State.setDout, pDisable]

/-- `READ_CYCLE(a)` on an idle bus (40 R116). -/
theorem readCycle_done (a : Addr) {s : State} {da : Nat} (hi : s.LinesIdle) (ha : s.CellAt a da) :
    readCycle a s = .done (memReadByte da s) { s with
      ddir := .input
      dout := addrLow a
      latM := some (addrHigh a)
      latL := some (addrLow a)
      draws := (memReadState da s).draws
      trace := s.trace ++ readTrace a da s.cfg.readSettleNops (memReadByte da s) } := by
  obtain ⟨hw, hr, hm, hl⟩ := hi
  obtain ⟨cfg, pending, opc, mode, fault, faultOp, faultOpc, ddir, dout, we, re, lem, lel, latM, latL, mem, sdp, busy,
    responses, trace, draws⟩ := s
  simp only [ControlLine.Idle, State.CellAt] at hw hr hm hl ha
  subst hw hr hm hl
  rw [readCycle, if_pos (by simp [State.linesDeasserted])]
  simp only [pCfgOutData, checkContention, State.contention, State.setDdir, State.emit, idle_active, Bool.false_and,
    Bool.false_eq_true, if_false, Micro.andThen_done]
  rw [latchAddr_done a rfl rfl rfl rfl]
  cases hc : Memory.read da mem <;>
    simp [pEnable, checkContention, State.contention, State.setLine, State.emit, State.line, State.deviceAddr,
      State.latchedAddr, joinAddr_slices, ha, State.react, pDisable, pCfgInData, State.setDdir, nop, pRead,
      State.deviceDrives, ControlLine.active, memReadByte, memReadState, hc, State.advanceDraws, State.drawnByte,
      readTrace]

/-- A data write leaves every other cell alone (20 R57, R65). -/
theorem memAfterWrite_read_other {a b : Nat} (h : b ≠ a) (v : Byte) (s : State) :
    Memory.read b (memAfterWrite a v s) = Memory.read b s.mem := by
  unfold memAfterWrite
  split
  · exact Memory.read_write_other h v s.mem
  · rfl
  · split
    · exact Memory.read_write_other h v s.mem
    · rfl

/-- A data write keeps the canonical form of the memory. -/
theorem memAfterWrite_wf (a : Nat) (v : Byte) {s : State} (h : Memory.wf s.mem = true) :
    Memory.wf (memAfterWrite a v s) = true := by
  unfold memAfterWrite
  split
  · exact Memory.wf_write a v s.mem h
  · exact h
  · split
    · exact Memory.wf_write a v s.mem h
    · exact h

/-- A data write lists no cell that does not exist. -/
theorem memAfterWrite_below {a n : Nat} (v : Byte) {s : State} (ha : a < n) (h : Memory.below n s.mem = true) :
    Memory.below n (memAfterWrite a v s) = true := by
  unfold memAfterWrite
  split
  · exact Memory.below_write v ha s.mem h
  · exact h
  · split
    · exact Memory.below_write v ha s.mem h
    · exact h

/-- The pairs of a command sequence on an idle bus (42 R150), for a list whose addresses all exist on the device. -/
theorem issuePairs_done (l : CommandList) : ∀ {s : State}, s.ddir = .output → s.LinesIdle →
    (∀ p ∈ l, s.CellAt p.1 p.1.toNat) →
    issuePairs l s = .done () { s with
      dout := (l.getLast?.map Prod.snd).getD s.dout
      latM := (l.getLast?.map fun p => some (addrHigh p.1)).getD s.latM
      latL := (l.getLast?.map fun p => some (addrLow p.1)).getD s.latL
      trace := s.trace ++ (l.map fun p => commandTrace p.1 p.2).flatten } := by
  induction l with
  | nil => intro s _ _ _; simp [issuePairs]
  | cons p l ih =>
    intro s hd hi ha
    rw [issuePairs, writeCycle_done p.1 p.2 .command hd hi (ha p (by simp)), Micro.andThen_done, deviceWrite, ih]
    · cases h : l.getLast? <;> simp [State.react, commandTrace, List.getLast?_cons, h]
    · exact hd
    · exact hi
    · exact fun q hq => ha q (by simp [hq])

/-- Every address of a command list of a well-formed configuration exists on the device (00 R6). -/
theorem commandList_cells {c : Config} (hw : c.wellFormed = true) {l : CommandList} (hl : c.commandListOk l = true) :
    ∀ p ∈ l, devaddr c p.1 = some p.1.toNat := by
  intro p hp
  simp only [Config.wellFormed, Config.commandAddrsOk, Bool.and_eq_true, decide_eq_true_eq] at hw
  simp only [Config.commandListOk, Bool.and_eq_true, List.all_eq_true, Bool.or_eq_true, beq_iff_eq] at hl
  have hin : p.1.toNat < c.devSize := by
    rcases hl.2 p hp with h | h <;> rw [h] <;> omega
  simp [devaddr, outOfRange, Nat.not_le.mpr hin]

/-- The device has a cell at every device address (20 R51). -/
theorem devaddr_lt {c : Config} (hw : c.wellFormed = true) {a : Addr} {da : Nat} (h : devaddr c a = some da) :
    da < c.devSize := by
  simp only [Config.wellFormed, Config.commandAddrsOk, Bool.and_eq_true, decide_eq_true_eq] at hw
  have hpos : 0 < c.devSize := by omega
  unfold devaddr at h
  split at h
  · split at h
    · cases h
      exact Nat.mod_lt _ hpos
    · cases h
  · rename_i hr
    cases h
    simpa [outOfRange] using hr

/-- What a controller reset leaves alone: the parameters, the host's stream, the latches and the whole device (70 R202, R203). -/
theorem controllerReset_keeps (s : State) :
    (controllerReset s).cfg = s.cfg ∧ (controllerReset s).pending = s.pending ∧ (controllerReset s).latM = s.latM ∧
      (controllerReset s).latL = s.latL ∧ (controllerReset s).mem = s.mem ∧ (controllerReset s).sdp = s.sdp ∧
      (controllerReset s).busy = s.busy :=
  ⟨rfl, rfl, rfl, rfl, rfl, rfl, rfl⟩

end Sys2Proof.Machine
end

