-- ==== Sys2Proof/Laws/Frame.lean ====
section
/-! SUPPORT. What no piece of an operation changes, from any state at all: the parameters, the host's stream, `OPC`, the fault
record and the responses; the device memory stays canonical; and the only fault a piece can raise is `PIN_CONTRACT`. -/

namespace Sys2Proof.Machine

/-- `t` differs from `s` only in what the pieces of an operation may touch. -/
structure State.Within (s t : State) : Prop where
  cfg : t.cfg = s.cfg
  pending : t.pending = s.pending
  opc : t.opc = s.opc
  fault : t.fault = s.fault
  faultOp : t.faultOp = s.faultOp
  faultOpc : t.faultOpc = s.faultOpc
  responses : t.responses = s.responses
  wf : Memory.wf s.mem = true → Memory.wf t.mem = true

theorem State.Within.refl (s : State) : s.Within s := ⟨rfl, rfl, rfl, rfl, rfl, rfl, rfl, id⟩

theorem State.Within.trans {s t u : State} (h : s.Within t) (k : t.Within u) : s.Within u :=
  ⟨k.cfg.trans h.cfg, k.pending.trans h.pending, k.opc.trans h.opc, k.fault.trans h.fault, k.faultOp.trans h.faultOp,
    k.faultOpc.trans h.faultOpc, k.responses.trans h.responses, fun w => k.wf (h.wf w)⟩

/-- A change of the pins, the latches, the trace or the device's flags stays within. -/
theorem State.Within.of_eqs {s t : State} (h₁ : t.cfg = s.cfg) (h₂ : t.pending = s.pending) (h₃ : t.opc = s.opc)
    (h₄ : t.fault = s.fault) (h₅ : t.faultOp = s.faultOp) (h₆ : t.faultOpc = s.faultOpc)
    (h₇ : t.responses = s.responses) (h₈ : t.mem = s.mem) : s.Within t :=
  ⟨h₁, h₂, h₃, h₄, h₅, h₆, h₇, fun w => h₈ ▸ w⟩

/-- A piece of an operation started in `s` ends within `s`, and raises nothing but `PIN_CONTRACT`. -/
def Micro.From {α : Type} (s : State) : Micro α → Prop
  | .done _ t => s.Within t
  | .raised c t => c = .pinContract ∧ s.Within t
  | .stuck _ => True

theorem Micro.From.andThen {α β : Type} {s : State} {m : Micro α} {k : α → State → Micro β} (hm : m.From s)
    (hk : ∀ a t, (k a t).From t) : (m.andThen k).From s := by
  cases m with
  | done a t =>
    have hk := hk a t
    simp only [Micro.andThen_done]
    cases h : k a t with
    | done b u => rw [h] at hk; exact State.Within.trans hm hk
    | raised c u => rw [h] at hk; exact ⟨hk.1, State.Within.trans hm hk.2⟩
    | stuck f => trivial
  | raised c t => exact hm
  | stuck f => trivial

theorem Micro.From.of_within {α : Type} {s t : State} {m : Micro α} (h : s.Within t) (hm : m.From t) : m.From s := by
  cases m with
  | done a u => exact State.Within.trans h hm
  | raised c u => exact ⟨hm.1, State.Within.trans h hm.2⟩
  | stuck f => trivial

theorem emit_within (e : PinEvent) (s : State) : s.Within (s.emit e) := .of_eqs rfl rfl rfl rfl rfl rfl rfl rfl

theorem react_within (r : Reaction) (s : State) : s.Within (s.react r) := .of_eqs rfl rfl rfl rfl rfl rfl rfl rfl

theorem setDdir_within (d : Dir) (s : State) : s.Within (s.setDdir d) := .of_eqs rfl rfl rfl rfl rfl rfl rfl rfl

theorem setMode_within (m : Mode) (s : State) : s.Within (s.setMode m) := .of_eqs rfl rfl rfl rfl rfl rfl rfl rfl

theorem advanceDraws_within (s : State) : s.Within s.advanceDraws := .of_eqs rfl rfl rfl rfl rfl rfl rfl rfl

theorem endWriteCycle_within (n : Nat) (s : State) : s.Within (endWriteCycle n s) :=
  .of_eqs rfl rfl rfl rfl rfl rfl rfl rfl

theorem checkContention_from (s : State) : (checkContention s).From s := by
  unfold checkContention
  split
  · trivial
  · exact .refl s

theorem pWrite_from (v : Byte) (s : State) : (pWrite v s).From s := by
  unfold pWrite
  split
  · exact .of_eqs rfl rfl rfl rfl rfl rfl rfl rfl
  · exact ⟨rfl, .refl s⟩

theorem pEnable_from (l : Line) (s : State) : (pEnable l s).From s := by
  unfold pEnable
  split
  · exact .of_within (.of_eqs (by simp) (by simp) (by simp) (by simp) (by simp) (by simp) (by simp) (by simp))
      (checkContention_from _)
  · trivial

theorem pDisable_within (l : Line) (s : State) : s.Within (pDisable l s) := by
  unfold pDisable
  exact .of_eqs (by simp) (by simp) (by simp) (by simp) (by simp) (by simp) (by simp) (by simp)

theorem pCfgOutLine_within (l : Line) (s : State) : s.Within (pCfgOutLine l s) := by
  unfold pCfgOutLine
  exact .of_eqs (by simp) (by simp) (by simp) (by simp) (by simp) (by simp) (by simp) (by simp)

theorem pCfgOutData_from (s : State) : (pCfgOutData s).From s := by
  unfold pCfgOutData
  exact .of_within ((setDdir_within _ s).trans (emit_within _ _)) (checkContention_from _)

theorem pCfgInData_within (s : State) : s.Within (pCfgInData s) := by
  unfold pCfgInData
  exact (setDdir_within _ s).trans (emit_within _ _)

theorem captureLatch_within (x : LatchId) (s : State) : s.Within (captureLatch x s) := by
  unfold captureLatch
  split <;> exact .of_eqs (by simp) (by simp) (by simp) (by simp) (by simp) (by simp) (by simp) (by simp)

theorem strobe_from (x : LatchId) (s : State) : (strobe x s).From s :=
  (pEnable_from _ s).andThen fun _ t => (pDisable_within _ t).trans (captureLatch_within _ _)

theorem latchAddr_from (a : Addr) (s : State) : (latchAddr a s).From s :=
  ((pWrite_from _ s).andThen fun _ t => strobe_from _ t).andThen fun _ t =>
    (pWrite_from _ t).andThen fun _ u => strobe_from _ u

theorem memWrite_within (a : Nat) (v : Byte) (s : State) : s.Within (memWrite a v s) :=
  ⟨rfl, rfl, rfl, rfl, rfl, rfl, rfl, fun h => memAfterWrite_wf a v h⟩

theorem deviceWrite_within (k : CycleKind) (a : Nat) (s : State) : s.Within (deviceWrite k a s) := by
  unfold deviceWrite
  split
  · exact (react_within _ s).trans (memWrite_within a _ _)
  · exact react_within _ s

/-- `WRITE_CYCLE` (40 R115) from any state. -/
theorem writeCycle_from (a : Addr) (d : Byte) (k : CycleKind) (s : State) : (writeCycle a d k s).From s := by
  unfold writeCycle
  split
  · refine (latchAddr_from a s).andThen fun _ t => (pEnable_from .we t).andThen fun _ u => ?_
    split
    · refine .of_within (react_within _ u) ((pWrite_from d _).andThen fun _ v => ?_)
      exact (pDisable_within .we v).trans (deviceWrite_within k _ _)
    · trivial
  · trivial

theorem memReadState_within (a : Nat) (s : State) : s.Within (memReadState a s) := by
  unfold memReadState
  split
  · exact .refl s
  · exact advanceDraws_within s

theorem pRead_from (s : State) : (pRead s).From s := by
  unfold pRead
  split
  · exact ⟨rfl, .refl s⟩
  · split
    · split
      · exact ((memReadState_within _ s).trans (emit_within _ _)).trans (react_within _ _)
      · trivial
    · exact (advanceDraws_within s).trans (emit_within _ _)

/-- `READ_CYCLE` (40 R116) from any state. -/
theorem readCycle_from (a : Addr) (s : State) : (readCycle a s).From s := by
  unfold readCycle
  split
  · refine (pCfgOutData_from s).andThen fun _ t => (latchAddr_from a t).andThen fun _ u => ?_
    refine Micro.From.of_within (pCfgInData_within u) ((pEnable_from .re _).andThen fun _ v => ?_)
    exact Micro.From.of_within (emit_within _ v) ((pRead_from _).andThen fun _ w => pDisable_within .re w)
  · trivial

theorem issuePairs_from (l : CommandList) : ∀ s : State, (issuePairs l s).From s := by
  induction l with
  | nil => exact .refl
  | cons p l ih => exact fun s => (writeCycle_from p.1 p.2 .command s).andThen fun _ t => ih t

theorem devCommand_within (c : CommandName) (s : State) : s.Within (devCommand c s) := by
  unfold devCommand
  split
  · exact .of_eqs rfl rfl rfl rfl rfl rfl rfl rfl
  · exact .of_eqs rfl rfl rfl rfl rfl rfl rfl rfl
  · exact ⟨rfl, rfl, rfl, rfl, rfl, rfl, rfl, fun _ => Memory.wf_fill s.cfg.devSize 0xFF#8⟩

/-- `ISSUE_SEQUENCE` (42 R150) from any state. -/
theorem issueSequence_from (c : CommandName) (l : CommandList) (n : Nat) (s : State) : (issueSequence c l n s).From s := by
  unfold issueSequence
  exact (issuePairs_from l s).andThen fun _ t =>
    ((emit_within (.sleepMs n) t).trans (react_within (.devCmd c) _)).trans (devCommand_within c _)

theorem idleLines_within (s : State) : s.Within (idleLines s) := by
  have h (l : Line) (s : State) : s.Within (idleLine l s) := (pDisable_within l s).trans (pCfgOutLine_within l _)
  exact (((h .we s).trans (h .re _)).trans (h .lem _)).trans (h .lel _)

/-- Every operation that goes on, from any state: it was refused, it raised the fault of a check of its own, it completed, or a
pin contract was broken. -/
theorem exec_next {i : Instr} {s t : State} (h : exec i s = .next t) :
    (s.fault ≠ .none ∧ t = s.respond .refused) ∨
      (s.fault = .none ∧ ∃ c, t = raiseFault c (encode i) s ∧
        (match i with
          | .cfgWrite => False
          | .cfgRead => False
          | .write a d => writeChecks a d s = some c
          | .read a => readChecks a s = some c
          | .unlock => commandChecks s = some c
          | .lock => commandChecks s = some c
          | .erase => commandChecks s = some c
          | .delayMs _ => False)) ∨
      (s.fault = .none ∧ ∃ r u, s.Within u ∧ t = complete r u) ∨
      (s.fault = .none ∧ ∃ u, s.Within u ∧ t = raiseFault .pinContract (encode i) u) := by
  have key {checks : State → Option FaultCode} {body : State → Micro Response} (hb : (body s).From s)
      (h : operation (encode i) checks body s = .next t) :
      (s.fault ≠ .none ∧ t = s.respond .refused) ∨
        (s.fault = .none ∧ ∃ c, t = raiseFault c (encode i) s ∧ checks s = some c) ∨
        (s.fault = .none ∧ ∃ r u, s.Within u ∧ t = complete r u) ∨
        (s.fault = .none ∧ ∃ u, s.Within u ∧ t = raiseFault .pinContract (encode i) u) := by
    rcases operation_next h with h | ⟨hf, c, hc, ht⟩ | ⟨hf, _, r, u, hd, ht⟩ | ⟨hf, _, c, u, hd, ht⟩
    · exact .inl h
    · exact .inr (.inl ⟨hf, c, ht, hc⟩)
    · rw [hd] at hb
      exact .inr (.inr (.inl ⟨hf, r, u, hb, ht⟩))
    · rw [hd] at hb
      obtain ⟨rfl, hw⟩ := hb
      exact .inr (.inr (.inr ⟨hf, u, hw, ht⟩))
  cases i with
  | cfgWrite =>
    simp only [exec, execCfgWrite] at h
    refine (key ?_ h).imp_right (Or.imp_left ?_)
    · exact Micro.From.of_within (idleLines_within s) ((pCfgOutData_from _).andThen fun _ t => setMode_within .write t)
    · rintro ⟨hf, c, _, hc⟩
      cases hc
  | cfgRead =>
    simp only [exec, execCfgRead] at h
    refine (key ?_ h).imp_right (Or.imp_left ?_)
    · exact ((idleLines_within s).trans (pCfgInData_within _)).trans (setMode_within .read _)
    · rintro ⟨hf, c, _, hc⟩
      cases hc
  | write a d =>
    simp only [exec, execWrite] at h
    refine key ?_ h
    exact (writeCycle_from a d .data s).andThen fun _ t => .refl t
  | read a =>
    simp only [exec, execRead] at h
    refine key ?_ h
    exact (readCycle_from a s).andThen fun _ t => .refl t
  | unlock =>
    simp only [exec, execUnlock] at h
    refine key ?_ h
    exact issueSequence_from _ _ _ s
  | lock =>
    simp only [exec, execLock] at h
    refine key ?_ h
    exact issueSequence_from _ _ _ s
  | erase =>
    simp only [exec, execErase] at h
    refine key ?_ h
    exact issueSequence_from _ _ _ s
  | delayMs n =>
    simp only [exec, execDelayMs] at h
    refine (key ?_ h).imp_right (Or.imp_left ?_)
    · exact (emit_within (.sleepMs n.toNat) s).trans (endWriteCycle_within n.toNat _)
    · rintro ⟨hf, c, _, hc⟩
      cases hc

end Sys2Proof.Machine
end

