-- ==== Sys2Proof/Laws/PerInstr.lean ====
section
/-! SUPPORT. The family `Format`, one lemma per operation: the fields of the operation's word (30 R81 to R83). -/

namespace Sys2Proof.Laws.Format

/-- The fields of the operation's word: its operation code, a zero reserved field, and the operands, with every field that the
operation's format does not use zero (30 R81, R82). -/
def Statement (i : Instr) : Prop :=
  opcField (encode i) = opcodeOf i ∧ rsvField (encode i) = 0#4 ∧ imm16Field (encode i) = imm16Of i ∧
    dataField (encode i) = dataOf i

theorem cfgWrite : Statement .cfgWrite := packWord_fields _ _ _
theorem cfgRead : Statement .cfgRead := packWord_fields _ _ _
theorem write (a : Addr) (d : Byte) : Statement (.write a d) := packWord_fields _ _ _
theorem read (a : Addr) : Statement (.read a) := packWord_fields _ _ _
theorem unlock : Statement .unlock := packWord_fields _ _ _
theorem lock : Statement .lock := packWord_fields _ _ _
theorem erase : Statement .erase := packWord_fields _ _ _
theorem delayMs (n : BitVec 16) : Statement (.delayMs n) := packWord_fields _ _ _

end Sys2Proof.Laws.Format
end

