-- ==== Sys2Proof/Laws/Ready.lean ====
section
/-! SUPPORT. On an idle bus no piece of an operation breaks a pin contract, so an operation that goes on from the bus invariant
was refused, raised the fault of a check, or completed (60 R173, R183). -/

namespace Sys2Proof.Machine

/-- `WRITE_CYCLE` on an idle bus at an address the device does not have is stuck (20 R51). -/
theorem writeCycle_no_cell (a : Addr) (d : Byte) (kind : CycleKind) {s : State} (hd : s.ddir = .output)
    (hi : s.LinesIdle) (ha : devaddr s.cfg a = none) : writeCycle a d kind s = .stuck .deviceAddressUndefined := by
  obtain ⟨hw, hr, hm, hl⟩ := hi
  rw [writeCycle, if_pos (by simp [State.linesDeasserted, hw, hr, hm, hl]),
    latchAddr_done a hd hm hl (by rw [hr]; rfl)]
  obtain ⟨cfg, pending, opc, mode, fault, faultOp, faultOpc, ddir, dout, we, re, lem, lel, latM, latL, mem, sdp, busy,
    responses, trace, draws⟩ := s
  simp only [ControlLine.Idle] at hd hw hr hm hl ha
  subst hd hw hr hm hl
  simp [pEnable, checkContention, State.contention, State.setLine, State.emit, State.line, State.deviceAddr,
    State.latchedAddr, joinAddr_slices, ha]

/-- `READ_CYCLE` on an idle bus at an address the device does not have is stuck (20 R51). -/
theorem readCycle_no_cell (a : Addr) {s : State} (hi : s.LinesIdle) (ha : devaddr s.cfg a = none) :
    readCycle a s = .stuck .deviceAddressUndefined := by
  obtain ⟨hw, hr, hm, hl⟩ := hi
  obtain ⟨cfg, pending, opc, mode, fault, faultOp, faultOpc, ddir, dout, we, re, lem, lel, latM, latL, mem, sdp, busy,
    responses, trace, draws⟩ := s
  simp only [ControlLine.Idle] at hw hr hm hl ha
  subst hw hr hm hl
  rw [readCycle, if_pos (by simp [State.linesDeasserted])]
  simp only [pCfgOutData, checkContention, State.contention, State.setDdir, State.emit, idle_active, Bool.false_and,
    Bool.false_eq_true, if_false, Micro.andThen_done]
  rw [latchAddr_done a rfl rfl rfl rfl]
  simp [pEnable, checkContention, State.contention, State.setLine, State.emit, State.line, State.deviceAddr,
    State.latchedAddr, joinAddr_slices, ha, pCfgInData, State.setDdir, nop, pRead, State.deviceDrives,
    ControlLine.active]

/-- A piece of an operation that raises no fault. -/
def Micro.Quiet {α : Type} : Micro α → Prop
  | .done _ _ => True
  | .raised _ _ => False
  | .stuck _ => True

theorem writeCycle_quiet (a : Addr) (d : Byte) (kind : CycleKind) {s : State} (hd : s.ddir = .output)
    (hi : s.LinesIdle) : (writeCycle a d kind s).Quiet := by
  cases ha : devaddr s.cfg a with
  | none => rw [writeCycle_no_cell a d kind hd hi ha]; trivial
  | some da => rw [writeCycle_done a d kind hd hi ha]; trivial

theorem readCycle_quiet (a : Addr) {s : State} (hi : s.LinesIdle) : (readCycle a s).Quiet := by
  cases ha : devaddr s.cfg a with
  | none => rw [readCycle_no_cell a hi ha]; trivial
  | some da => rw [readCycle_done a hi ha]; trivial

theorem issuePairs_quiet (l : CommandList) : ∀ {s : State}, s.ddir = .output → s.LinesIdle → (issuePairs l s).Quiet := by
  induction l with
  | nil => intro s _ _; trivial
  | cons p l ih =>
    intro s hd hi
    rw [issuePairs]
    cases ha : devaddr s.cfg p.1 with
    | none => rw [writeCycle_no_cell p.1 p.2 .command hd hi ha]; trivial
    | some da =>
      rw [writeCycle_done p.1 p.2 .command hd hi ha]
      exact ih hd hi

theorem Micro.Quiet.then_done {α β : Type} {m : Micro α} (h : m.Quiet) (f : α → State → β) (g : α → State → State) :
    (m.andThen fun a s => .done (f a s) (g a s)).Quiet := by
  cases m with
  | done a s => trivial
  | raised c s => exact h
  | stuck f => trivial

/-- From the bus invariant the mode says what the pins are: write mode. -/
theorem writeReady_of_mode {s : State} (h : s.BusInv) (hm : s.mode = .write) : s.WriteReady := by
  rcases h with h | h | h
  · exact h
  · rw [h.1] at hm; cases hm
  · rw [h.1] at hm; cases hm

/-- From the bus invariant the mode says what the pins are: read mode. -/
theorem readReady_of_mode {s : State} (h : s.BusInv) (hm : s.mode = .read) : s.ReadReady := by
  rcases h with h | h | h
  · rw [h.1] at hm; cases hm
  · exact h
  · rw [h.1] at hm; cases hm

theorem mode_of_writeChecks {a : Addr} {d : Byte} {s : State} (h : writeChecks a d s = none) : s.mode = .write := by
  simpa [modeCheck] using firstFault_eq_none h (modeCheck .write s) (by simp)

theorem mode_of_readChecks {a : Addr} {s : State} (h : readChecks a s = none) : s.mode = .read := by
  simpa [modeCheck] using firstFault_eq_none h (modeCheck .read s) (by simp)

theorem mode_of_commandChecks {s : State} (h : commandChecks s = none) : s.mode = .write := by
  simpa [modeCheck] using firstFault_eq_none h (modeCheck .write s) (by simp)

/-- The body of an operation raises nothing when its checks have passed from the bus invariant: so an operation that goes on was
refused, raised the fault of a check and changed nothing else, or completed. -/
theorem exec_next_ready {i : Instr} {s t : State} (hb : s.BusInv) (h : exec i s = .next t) :
    (s.fault ≠ .none ∧ t = s.respond .refused) ∨
      (s.fault = .none ∧ ∃ c, t = raiseFault c (encode i) s ∧
        (match i with
          | .cfgWrite => False
          | .cfgRead => False
          | .write a d => writeChecks a d s = some c
          | .read a => readChecks a s = some c
          | .unlock => commandChecks s = some c
          | .lock => commandChecks s = some c
          | .erase => commandChecks s = some c
          | .delayMs _ => False)) ∨
      (s.fault = .none ∧ ∃ r u, s.Within u ∧ t = complete r u) := by
  have key {checks : State → Option FaultCode} {body : State → Micro Response}
      (hq : checks s = none → (body s).Quiet) (h : operation (encode i) checks body s = .next t) :
      s.fault ≠ .none ∨ (∃ c, checks s = some c ∧ t = raiseFault c (encode i) s) ∨
        ∃ r u, body s = .done r u ∧ t = complete r u := by
    rcases operation_next h with h | ⟨_, c, hc, ht⟩ | ⟨_, _, r, u, hd, ht⟩ | ⟨_, hc, c, u, hd, _⟩
    · exact .inl h.1
    · exact .inr (.inl ⟨c, hc, ht⟩)
    · exact .inr (.inr ⟨r, u, hd, ht⟩)
    · exact absurd (hq hc) (by rw [hd]; exact id)
  rcases exec_next h with h' | ⟨hf, c, h'⟩ | h' | ⟨hf, u, hw, ht⟩
  · exact .inl h'
  · exact .inr (.inl ⟨hf, c, h'⟩)
  · exact .inr (.inr h')
  · exfalso
    have hbad : t.fault = .pinContract := by rw [ht]; rfl
    have hnot {checks : State → Option FaultCode} {body : State → Micro Response}
        (hc : ∀ c, checks s = some c → c ≠ .pinContract) (hfr : (body s).From s)
        (hq : checks s = none → (body s).Quiet) (h : operation (encode i) checks body s = .next t) : False := by
      rcases key hq h with h | ⟨c, hc', rfl⟩ | ⟨r, v, hd, rfl⟩
      · exact h hf
      · exact hc c hc' hbad
      · rw [hd] at hfr
        have : v.fault = .none := hfr.fault.trans hf
        rw [show (complete r v).fault = v.fault from rfl, this] at hbad
        cases hbad
    have hw {a : Addr} {d : Byte} (c : FaultCode) (hc : writeChecks a d s = some c) : c ≠ .pinContract := by
      have := firstFault_eq_some hc
      simp only [modeCheck, rangeCheck, busyCheck, prefixCheck, List.mem_cons, Prod.mk.injEq, List.not_mem_nil] at this
      rintro rfl
      simp at this
    have hr {a : Addr} (c : FaultCode) (hc : readChecks a s = some c) : c ≠ .pinContract := by
      have := firstFault_eq_some hc
      simp only [modeCheck, rangeCheck, busyCheck, List.mem_cons, Prod.mk.injEq, List.not_mem_nil] at this
      rintro rfl
      simp at this
    have hc (c : FaultCode) (hc : commandChecks s = some c) : c ≠ .pinContract := by
      have := firstFault_eq_some hc
      simp only [modeCheck, busyCheck, List.mem_cons, Prod.mk.injEq, List.not_mem_nil] at this
      rintro rfl
      simp at this
    have hq (c : CommandName) (l : CommandList) (n : Nat) (hk : commandChecks s = none) :
        (issueSequence c l n s).Quiet := by
      have hr := writeReady_of_mode hb (mode_of_commandChecks hk)
      exact (issuePairs_quiet l hr.2.1 hr.2.2).then_done _ _
    cases i with
    | cfgWrite =>
      simp only [exec, execCfgWrite] at h
      refine hnot (checks := noChecks) (fun c hc => by cases hc) ?_ (fun _ => ?_) h
      · exact Micro.From.of_within (idleLines_within s)
          ((pCfgOutData_from _).andThen fun _ t => setMode_within .write t)
      · simp only [pCfgOutData, checkContention]
        split <;> trivial
    | cfgRead =>
      simp only [exec, execCfgRead] at h
      refine hnot (checks := noChecks) (fun c hc => by cases hc) ?_ (fun _ => ?_) h
      swap
      · trivial
      exact ((idleLines_within s).trans (pCfgInData_within _)).trans (setMode_within .read _)
    | write a d =>
      simp only [exec, execWrite] at h
      refine hnot hw ?_ (fun hk => ?_) h
      · exact (writeCycle_from a d .data s).andThen fun _ t => .refl t
      · have hr := writeReady_of_mode hb (mode_of_writeChecks hk)
        exact (writeCycle_quiet a d .data hr.2.1 hr.2.2).then_done _ _
    | read a =>
      simp only [exec, execRead] at h
      refine hnot hr ?_ (fun hk => ?_) h
      · exact (readCycle_from a s).andThen fun _ t => .refl t
      · have hr := readReady_of_mode hb (mode_of_readChecks hk)
        exact (readCycle_quiet a hr.2.2).then_done _ _
    | unlock =>
      simp only [exec, execUnlock] at h
      exact hnot hc (issueSequence_from _ _ _ s) (hq _ _ _) h
    | lock =>
      simp only [exec, execLock] at h
      exact hnot hc (issueSequence_from _ _ _ s) (hq _ _ _) h
    | erase =>
      simp only [exec, execErase] at h
      exact hnot hc (issueSequence_from _ _ _ s) (hq _ _ _) h
    | delayMs n =>
      simp only [exec, execDelayMs] at h
      refine hnot (checks := noChecks) (fun c hc => by cases hc) ?_ (fun _ => ?_) h
      swap
      · trivial
      exact (emit_within (.sleepMs n.toNat) s).trans (endWriteCycle_within n.toNat _)

end Sys2Proof.Machine
end

