-- ==== Sys2Proof/Tests/Slice0.lean ====
section
/-! SUPPORT. Tests with expected results from 95_test_vectors.md (the vector is named in each docstring), smoke tests of
well-formedness, and one witness per obligation that has hypotheses. -/

namespace Sys2Proof.Tests

open Sys2Proof Sys2Proof.Machine

/-! ### Decoding (95 section 2.1) -/

theorem test_decode_mode_switches :
    decode 0x10000000#32 = some .cfgWrite ∧ decode 0x20000000#32 = some .cfgRead := by decide

/-- Bit by bit: `OPC` 0011, `RSV` 0000, `IMM16` 0001001000110100, `DATA` 10101011. -/
theorem test_decode_write :
    decode 0b00110000000100100011010010101011#32 = some (.write 0x1234#16 0xAB#8) ∧
    decode 0x30000000#32 = some (.write 0x0000#16 0x00#8) ∧
    decode 0x30FFFFFF#32 = some (.write 0xFFFF#16 0xFF#8) := by decide

theorem test_decode_read :
    decode 0x40123400#32 = some (.read 0x1234#16) ∧ decode 0x401FFF00#32 = some (.read 0x1FFF#16) := by decide

theorem test_decode_commands :
    decode 0x50000000#32 = some .unlock ∧ decode 0x60000000#32 = some .lock ∧ decode 0x70000000#32 = some .erase := by decide

theorem test_decode_delay :
    decode 0x80000A00#32 = some (.delayMs 10#16) ∧ decode 0x80FFFF00#32 = some (.delayMs 65535#16) := by decide

theorem test_decode_illegal :
    [0x00000000#32, 0x90000000#32, 0xF0000000#32, 0xFFFFFFFF#32, 0x11000000#32, 0x10000001#32, 0x50000100#32, 0x40123401#32,
      0x80000A01#32, 0x31000000#32, 0x3F1234AB#32].all (fun w => decode w == none) = true := by decide

/-- Words as spec/opcode_table.json numbers their bits. -/
theorem test_decodeTableWord :
    decodeTableWord 32 0x10000000 = some .cfgWrite ∧ decodeTableWord 32 0x40123400 = some (.read 0x1234#16) ∧
    decodeTableWord 32 0x11000000 = none := by decide

/-! ### Well-formedness -/

theorem test_wf_default : Config.default.wellFormed = true := by decide

/-- 8191 is no power of two; 131072 is beyond 16 bits. -/
theorem test_wf_devSize :
    { Config.default with devSize := 8191 }.wellFormed = false ∧ { Config.default with devSize := 131072 }.wellFormed = false ∧
    { Config.default with devSize := 65536 }.wellFormed = true := by decide

/-- `CMD_A = CMD_B`; `CMD_A` at `DEV_SIZE`. -/
theorem test_wf_commandAddrs :
    { Config.default with cmdB := 0x1555#16 }.commandAddrsOk = false ∧
    { Config.default with devSize := 4096 }.commandAddrsOk = false := by decide

/-- An empty list; an address that is neither `CMD_A` nor `CMD_B`. -/
theorem test_wf_commandList :
    { Config.default with seqLock := [] }.wellFormed = false ∧
    { Config.default with seqLock := [(0x0000#16, 0xA0#8)] }.wellFormed = false := by decide

theorem test_wf_listsDiffer :
    { Config.default with seqErase := Config.default.seqUnlock }.wellFormed = false := by decide

theorem test_wf_settleDelays :
    { Config.default with tEraseMs := 19 }.wellFormed = false ∧ { Config.default with tUnlockMs := 9 }.wellFormed = false ∧
    { Config.default with tLockMs := 9 }.wellFormed = false := by decide

/-- One group only; a gap; an overlap; widths that sum to 7. -/
theorem test_wf_dataGroups :
    { Config.default with dataGroups := [⟨0, 8⟩] }.wellFormed = false ∧
    { Config.default with dataGroups := [⟨0, 3⟩, ⟨4, 4⟩] }.wellFormed = false ∧
    { Config.default with dataGroups := [⟨0, 5⟩, ⟨4, 4⟩] }.wellFormed = false ∧
    { Config.default with dataGroups := [⟨0, 4⟩, ⟨4, 3⟩] }.wellFormed = false ∧
    { Config.default with dataGroups := [⟨0, 2⟩, ⟨2, 5⟩, ⟨7, 1⟩] }.wellFormed = true := by decide

/-- Twelve distinct pins, the low data lines on port 0 and the high ones on port 1, the control lines on port 2. -/
def samplePins : PinMap where
  data := #v[⟨0, 0⟩, ⟨0, 1⟩, ⟨0, 2⟩, ⟨0, 3⟩, ⟨1, 0⟩, ⟨1, 1⟩, ⟨1, 2⟩, ⟨1, 3⟩]
  we := ⟨2, 0⟩
  re := ⟨2, 1⟩
  lem := ⟨2, 2⟩
  lel := ⟨2, 3⟩

/-- A pin used twice; a data group over two ports. -/
theorem test_wf_pinMap :
    { Config.default with pinMap := samplePins }.pinMapOk = true ∧
    { Config.default with pinMap := { samplePins with we := ⟨0, 0⟩ } }.pinMapOk = false ∧
    { Config.default with pinMap := samplePins, dataGroups := [⟨0, 5⟩, ⟨5, 3⟩] }.pinMapOk = false := by decide

theorem test_wf_timing :
    { Config.default with readSettleReq := 2 }.timingOk = true ∧
    { Config.default with readSettleReq := 3 }.timingOk = false := by decide

theorem test_wf_asmLine :
    (AsmLine.write 0x10000 0).wellFormed = false ∧ (AsmLine.write 0 256).wellFormed = false ∧
    (AsmLine.delayMs 65536).wellFormed = false ∧ (AsmLine.write 0xFFFF 255).wellFormed = true := by decide

/-! ### States -/

/-- An idle control line. -/
def idle : ControlLine := ⟨.output, .deasserted⟩

/-- `SW` of 95_test_vectors.md over the power-on device. -/
def sw : State :=
  { State.reset with mode := .write, ddir := .output, dout := 0x00#8, we := idle, re := idle, lem := idle, lel := idle }

/-- `SR` of 95_test_vectors.md over the power-on device. -/
def sr : State := { sw with mode := .read, ddir := .input }

/-- `SW` with `DEV.SDP = some Unprotected`. -/
def swFree : State := { sw with sdp := some .isUnprotected }

/-- `SW` with `DEV.SDP = some Protected` and one known cell. -/
def swLocked : State := { sw with sdp := some .isProtected, mem := [(0x1234, 0x77#8)] }

/-- The parameters under `OOR_POLICY = Alias`. -/
def aliasedConfig : Config := { Config.default with oorPolicy := .aliased }

/-- The parameters with `STRICT_WRITE_CYCLE = true`. -/
def strictConfig : Config := { Config.default with strictWriteCycle := true }

/-- `SW`, strict, `BUSY = true`. -/
def swBusy : State := { sw with cfg := strictConfig, busy := true }

/-- `SR`, strict, `BUSY = true`. -/
def srBusy : State := { sr with cfg := strictConfig, busy := true }

/-- A well-formed configuration with four cells. -/
def smallConfig : Config :=
  { Config.default with
    devSize := 4
    cmdA := 1#16
    cmdB := 2#16
    seqUnlock := [(1#16, 0xAA#8), (2#16, 0x20#8)]
    seqLock := [(2#16, 0xA0#8)]
    seqErase := [(1#16, 0xAA#8), (2#16, 0x10#8)] }

/-- `SW` over the four-cell device. -/
def swSmall : State := { sw with cfg := smallConfig }

/-- What `f` says of the next state, nothing when there is none. -/
def nextIs {α : Type} (f : State → α) (o : Host.Outcome State Fault Refusal) : Option α :=
  match o with
  | .next s => some (f s)
  | .fault _ => none
  | .refused _ => none

/-- The new responses of a step from `s`, as an option when there is exactly one. -/
def lastResponse (o : Host.Outcome State Fault Refusal) : Option (Option Response) :=
  nextIs (fun s => s.responses.getLast?) o

/-- `s` with the word `w` issued. -/
def issued (w : Nat) (s : State) : State := s.withFetchWord 32 w

/-! ### Steps (95 sections 2.2 to 2.8) -/

/-- V-C1. -/
theorem test_cfgWrite_from_reset :
    nextIs (fun s => (s.trace, s.mode, s.ddir, s.opc)) (step (issued 0x10000000 State.reset)) =
      some ([.event (.deasserts .we), .event (.dirLine .we .output), .event (.deasserts .re), .event (.dirLine .re .output),
        .event (.deasserts .lem), .event (.dirLine .lem .output), .event (.deasserts .lel), .event (.dirLine .lel .output),
        .event (.dirData .output)], .write, .output, 1) := by decide

/-- V-C4: `DOUT` keeps the low address byte of the last read. -/
theorem test_cfgWrite_keeps_dout :
    nextIs (fun s => (s.dout, s.latL)) (exec .cfgWrite { sr with dout := 0x34#8 }) = some (0x34#8, none) := by decide

/-- V-C2. -/
theorem test_cfgRead_from_reset :
    nextIs (fun s => (s.trace.getLast?, s.mode, s.ddir, s.trace.length)) (step (issued 0x20000000 State.reset)) =
      some (some (.event (.dirData .input)), .read, .input, 9) := by decide

/-- E5, the whole trace, and what it leaves. -/
theorem test_write_latch_order :
    nextIs (fun s => (s.mem, s.dout, s.latM, s.latL, s.responses)) (step (issued 0x30123400 swFree)) =
      some ([(0x1234, 0x00#8)], 0x00#8, some 0x12#8, some 0x34#8, [.ok]) ∧
    nextIs State.trace (step (issued 0x30123400 swFree)) =
      some [.event (.drive 0x12#8), .event (.asserts .lem), .event (.deasserts .lem), .reaction (.latch .msb 0x12#8),
        .event (.drive 0x34#8), .event (.asserts .lel), .event (.deasserts .lel), .reaction (.latch .lsb 0x34#8),
        .event (.asserts .we), .reaction (.devAddr 0x1234), .event (.drive 0x00#8), .event (.deasserts .we),
        .reaction (.devWrite 0x1234 0x00#8)] := by decide

/-- V-W2 and V-W6. -/
theorem test_write_locked_and_aliased :
    nextIs State.mem (step (issued 0x301234AB swLocked)) = some [(0x1234, 0x77#8)] ∧
    nextIs (fun s => (s.mem, s.latM)) (step (issued 0x30200055 { swFree with cfg := aliasedConfig })) =
      some ([(0x0000, 0x55#8)], some 0x20#8) := by decide

/-- V-R1, the whole trace, and what it leaves. -/
theorem test_read_trace :
    nextIs (fun s => (s.trace, s.dout, s.ddir, s.responses)) (step (issued 0x40000000 { sr with mem := [(0, 0xAB#8)] })) =
      some ([.event (.dirData .output), .event (.drive 0x00#8), .event (.asserts .lem), .event (.deasserts .lem),
        .reaction (.latch .msb 0x00#8), .event (.drive 0x00#8), .event (.asserts .lel), .event (.deasserts .lel),
        .reaction (.latch .lsb 0x00#8), .event (.dirData .input), .event (.asserts .re), .event (.nop 2),
        .event (.sample 0xAB#8), .reaction (.devRead 0x0000 0xAB#8), .event (.deasserts .re)],
        0x00#8, .input, [.data 0xAB#8]) := by decide

/-- V-R8 and V-R6. -/
theorem test_read_aliased_and_last :
    lastResponse (step (issued 0x40223400 { sr with cfg := aliasedConfig, mem := [(0x0234, 0x77#8)] })) =
      some (some (.data 0x77#8)) ∧
    lastResponse (step (issued 0x401FFF00 { sr with mem := [(0x1FFF, 0x3C#8)] })) = some (some (.data 0x3C#8)) := by decide

/-- V-S1. -/
theorem test_unlock :
    nextIs (fun s => (eventCount s.trace, s.trace.getLast?, s.sdp, s.dout)) (step (issued 0x50000000 sw)) =
      some (55, some (.reaction (.devCmd .unlock)), some .isUnprotected, 0x20#8) ∧
    nextIs (fun s => (s.latM, s.latL, sleepCount s.trace)) (step (issued 0x50000000 sw)) =
      some (some 0x15#8, some 0x55#8, 10) := by decide

/-- V-S2. -/
theorem test_lock :
    nextIs (fun s => (eventCount s.trace, sleepCount s.trace, s.sdp, s.dout)) (step (issued 0x60000000 sw)) =
      some (28, 10, some .isProtected, 0xA0#8) := by decide

/-- V-S3, on four cells: a locked device is erased and stays locked. -/
theorem test_erase :
    nextIs (fun s => (s.mem, s.sdp, s.dout, sleepCount s.trace))
      (step (issued 0x70000000 { swSmall with sdp := some .isProtected, mem := [(2, 0x12#8)] })) =
      some ([(0, 0xFF#8), (1, 0xFF#8), (2, 0xFF#8), (3, 0xFF#8)], some .isProtected, 0x10#8, 20) := by decide

/-- V-D1 to V-D3. -/
theorem test_delay_ends_busy :
    nextIs State.trace (step (issued 0x80000000 State.reset)) = some [.event (.sleepMs 0)] ∧
    nextIs State.busy (step (issued 0x80000A00 swBusy)) = some false ∧
    nextIs State.busy (step (issued 0x80000900 swBusy)) = some true := by decide

/-- V-W5, V-W8 to V-W10, V-W15, V-W17 to V-W19: the codes, and so the order of the checks. -/
theorem test_write_faults :
    nextIs State.fault (step (issued 0x30200000 sw)) = some .addressOutOfRange ∧
    nextIs State.fault (step (issued 0x301234AB sr)) = some .modeViolation ∧
    nextIs State.fault (step (issued 0x301555AA sw)) = some .cmdPrefix ∧
    nextIs State.fault (step (issued 0x30000001 swBusy)) = some .deviceBusy ∧
    nextIs State.fault (step (issued 0x302000AA State.reset)) = some .modeViolation ∧
    nextIs State.fault (step (issued 0x301555AA swBusy)) = some .deviceBusy ∧
    nextIs State.fault (step (issued 0x30200000 swBusy)) = some .addressOutOfRange := by decide

/-- V-R3, V-R5, V-R9, V-S5, V-S7. -/
theorem test_other_faults :
    nextIs State.fault (step (issued 0x40000000 sw)) = some .modeViolation ∧
    nextIs State.fault (step (issued 0x40200000 sr)) = some .addressOutOfRange ∧
    nextIs State.fault (step (issued 0x40000000 srBusy)) = some .deviceBusy ∧
    nextIs State.fault (step (issued 0x50000000 sr)) = some .modeViolation ∧
    nextIs State.fault (step (issued 0x70000000 swBusy)) = some .deviceBusy := by decide

/-- V-W11 to V-W13: the guard off, another byte, the second pair. -/
theorem test_prefix_guard_is_exact :
    nextIs State.mem (step (issued 0x301555AA { swFree with cfg := { Config.default with cmdPrefixGuard := false } })) =
      some [(0x1555, 0xAA#8)] ∧
    nextIs State.mem (step (issued 0x301555AB swFree)) = some [(0x1555, 0xAB#8)] ∧
    nextIs State.mem (step (issued 0x300AAA55 swFree)) = some [(0x0AAA, 0x55#8)] := by decide

/-- V-F3 and V-F4. -/
theorem test_illegal_word :
    nextIs (fun s => (s.fault, s.faultOp, s.faultOpc, s.opc, s.responses)) (step (issued 0 { sw with opc := 7 })) =
      some (.illegalOp, 0x00000000#32, 7, 7, [.faulted .illegalOp]) ∧
    nextIs State.fault (step (issued 0x40FFFF01 State.reset)) = some .illegalOp := by decide

/-- V-F1 and V-F2: halted before decode. -/
theorem test_halted :
    lastResponse (step (issued 0x10000000 { sw with fault := .modeViolation })) = some (some .refused) ∧
    nextIs (fun s => (s.fault, s.opc, s.trace)) (step (issued 0 { sw with fault := .modeViolation, opc := 3 })) =
      some (.modeViolation, 3, []) := by decide

/-- V-F5: the latches and the cells are as before the reset. -/
theorem test_controller_reset :
    nextIs (fun s => (s.fault, s.mode, s.latM, s.mem))
      (step { swLocked with fault := .cmdPrefix, latM := some 0x15#8, opc := 4, pending := [.reset] }) =
      some (.none, .unconfigured, some 0x15#8, [(0x1234, 0x77#8)]) := by decide

/-- V-F5, with 20 R62: a busy device stays busy over the reset. -/
theorem test_controller_reset_busy :
    nextIs (fun s => (s.busy, s.fault)) (step { swBusy with fault := .deviceBusy, pending := [.reset] }) =
      some (true, .none) := by decide

/-- V-P1. -/
theorem test_sub_events :
    subEvents Config.default (.drive 0x5A#8) = [.portWrite ⟨0, 4⟩ 0xA, .portWrite ⟨4, 4⟩ 0x5] ∧
    subEvents Config.default (.sample 0xAB#8) = [.portRead ⟨0, 4⟩ 0xB, .portRead ⟨4, 4⟩ 0xA] ∧
    joinGroups Config.default.dataGroups [0xB, 0xA] = 0xAB := by decide

/-- V-P2: `WE` active-low, `LEM` active-high. -/
theorem test_phys :
    (pDisable .we sw).phys .we = some true ∧ { sw with we := ⟨.output, .asserted⟩ }.phys .we = some false ∧
    (pDisable .lem sw).phys .lem = some false ∧ { sw with lem := ⟨.output, .asserted⟩ }.phys .lem = some true := by decide

/-- V-P5, the first half: the LSB latch holds while the MSB byte is latched. -/
theorem test_latch_holds :
    (match latchByte .msb 0xAB#8 { sw with latM := some 0x12#8, latL := some 0x34#8 } with
      | .done _ s => some (s.latM, s.latL)
      | .raised _ _ => none
      | .stuck _ => none) = some (some 0xAB#8, some 0x34#8) := by decide

/-- P7 as text, with a comment and one of the source's call names. -/
theorem test_assemble_text :
    assembleText Config.default "SDP_PROGRAM 0x0042, 0x7E\nVERIFY 0x0042 ; read back".toList =
      some [0x10000000#32, 0x50000000#32, 0x3000427E#32, 0x60000000#32, 0x20000000#32, 0x40004200#32] ∧
    assembleText Config.default "write 0x0000, 171".toList = some [0x300000AB#32] := by decide

/-! ### Witnesses of the obligations' hypotheses -/

theorem witness_EncodeOfDecodeIsTheWord : decode 0x301234AB#32 = some (.write 0x1234#16 0xAB#8) := by decide

theorem witness_MaskAndMatchSelectTheOperation :
    (0x30000000#32, 0xFF000000#32) ∈ opcodeRows ∧ (0x40000000#32, 0xFF0000FF#32) ∈ opcodeRows ∧
      ((0x30000000#32, 0xFF000000#32) : Word × Word) ≠ (0x40000000#32, 0xFF0000FF#32) := by decide

theorem witness_OperandsAreTheFieldsOfTheWord :
    decode 0x30FFFFFF#32 = some (.write 0xFFFF#16 0xFF#8) ∧ decode 0x40FFFF00#32 = some (.read 0xFFFF#16) ∧
      decode 0x80FFFF00#32 = some (.delayMs 0xFFFF#16) := by decide

theorem witness_StepRunsTheIssuedOperation :
    (∃ (s : State) (w : Word) (rest : List HostInput) (i : Instr), s.pending = .op w :: rest ∧ decode w = some i) ∧ (∃ w i, decode w = some i) ∧
      (∃ (s : State) (rest : List HostInput), s.pending = .reset :: rest) ∧ State.reset.pending = [] :=
  ⟨⟨{ sw with pending := [.op 0x50000000#32] }, 0x50000000#32, [], .unlock, rfl, by decide⟩,
    ⟨0x80000A00#32, .delayMs 10#16, by decide⟩, ⟨{ sw with pending := [.reset] }, [], rfl⟩, rfl⟩

theorem witness_IllegalWordRaisesIllegalOp :
    ∃ (s : State) (w : Word) (rest : List HostInput), s.pending = .op w :: rest ∧ s.fault = .none ∧ decode w = none :=
  ⟨{ sw with pending := [.op 0x90000000#32] }, 0x90000000#32, [], rfl, rfl, by decide⟩

theorem witness_HaltedBlockRefusesEveryWord :
    ∃ (s : State) (w : Word) (rest : List HostInput), s.pending = .op w :: rest ∧ s.fault ≠ .none :=
  ⟨{ sw with fault := .illegalOp, pending := [.op 0x10000000#32] }, 0x10000000#32, [], rfl, by decide⟩

theorem witness_WrongModeRaisesModeViolation :
    (sr.fault = .none ∧ sr.mode ≠ .write) ∧ (sw.fault = .none ∧ sw.mode ≠ .read) ∧
      (State.reset.fault = .none ∧ State.reset.mode ≠ .write ∧ State.reset.mode ≠ .read) := by decide

/-- The first address out of range, in both modes; and, under `Alias`, the same address completing. -/
theorem witness_AddressOutOfRangeFaults :
    (sw.fault = .none ∧ sw.cfg.devSize ≤ (0x2000#16).toNat ∧ sw.cfg.oorPolicy = .fault ∧ sw.mode = .write) ∧
      (sr.fault = .none ∧ sr.cfg.devSize ≤ (0x2000#16).toNat ∧ sr.cfg.oorPolicy = .fault ∧ sr.mode = .read) ∧
      ∃ s t : State, s.fault = .none ∧ s.cfg.oorPolicy = .aliased ∧ exec (.write 0x2000#16 0x55#8) s = .next t :=
  ⟨by decide, by decide, { swFree with cfg := aliasedConfig }, _, rfl, rfl, rfl⟩

/-- The last address in range, in both modes; and a block without strict mode. -/
theorem witness_BusyDeviceFaultsInStrictMode :
    (swBusy.fault = .none ∧ swBusy.cfg.strictWriteCycle = true ∧ swBusy.busy = true ∧ swBusy.mode = .write ∧
        ¬(swBusy.cfg.devSize ≤ (0x1FFF#16).toNat ∧ swBusy.cfg.oorPolicy = .fault)) ∧
      (srBusy.fault = .none ∧ srBusy.cfg.strictWriteCycle = true ∧ srBusy.busy = true ∧ srBusy.mode = .read ∧
        ¬(srBusy.cfg.devSize ≤ (0x1FFF#16).toNat ∧ srBusy.cfg.oorPolicy = .fault)) ∧
      ∃ s t : State, s.fault = .none ∧ s.cfg.strictWriteCycle = false ∧ exec (.read 0x1FFF#16) s = .next t :=
  ⟨by decide, by decide, sr, _, rfl, rfl, rfl⟩

/-- The guarded pair; its neighbour `0xAB`; and another operation. -/
theorem witness_CommandPrefixIsGuarded :
    (sw.fault = .none ∧ sw.mode = .write ∧ ¬(sw.cfg.devSize ≤ (0x1555#16).toNat ∧ sw.cfg.oorPolicy = .fault) ∧
        ¬(sw.cfg.strictWriteCycle = true ∧ sw.busy = true) ∧ sw.cfg.cmdPrefixGuard = true ∧
        sw.SpellsCommand 0x1555#16 0xAA#8) ∧
      (∃ t, sw.fault = .none ∧ ¬(sw.cfg.cmdPrefixGuard = true ∧ sw.SpellsCommand 0x1555#16 0xAB#8) ∧
        exec (.write 0x1555#16 0xAB#8) sw = .next t) ∧
      ∃ t, sw.fault = .none ∧ (∀ a d, Instr.lock ≠ .write a d) ∧ exec .lock sw = .next t :=
  ⟨by decide, ⟨_, rfl, by decide, rfl⟩, ⟨_, rfl, by simp, rfl⟩⟩

/-- A halted block, an illegal word, a failing check, and a word that passes its checks. -/
theorem witness_ChecksAreMadeInOrder :
    ∀ w ∈ [0x00000000#32, 0x302000AA#32, 0x10000000#32], ∀ f ∈ [FaultCode.none, FaultCode.cmdPrefix],
      ∃ s t : State, s.fault = f ∧ s.BusInv ∧ s.pending = [.op w] ∧ step s = .next t := by
  intro w hw f hf
  refine ⟨{ sw with fault := f, pending := [.op w] }, ?_⟩
  simp only [List.mem_cons, List.not_mem_nil, or_false] at hw hf
  rcases hw with rfl | rfl | rfl <;> rcases hf with rfl | rfl <;>
    exact ⟨_, rfl, Or.inl ⟨rfl, rfl, rfl, rfl, rfl, rfl⟩, rfl, rfl⟩

/-- A failing check, and an illegal word. -/
theorem witness_FaultEntryChangesNothingElse :
    ∀ w ∈ [0x40000000#32, 0x90000000#32], ∃ s t : State, s.BusInv ∧ s.fault = .none ∧ s.pending = [.op w] ∧
      step s = .next t ∧ t.fault ≠ .none := by
  intro w hw
  refine ⟨{ sw with pending := [.op w] }, ?_⟩
  simp only [List.mem_cons, List.not_mem_nil, or_false] at hw
  rcases hw with rfl | rfl <;> exact ⟨_, Or.inl ⟨rfl, rfl, rfl, rfl, rfl, rfl⟩, rfl, rfl, rfl, by decide⟩

/-- A halted block on a word, and on a controller reset, after which no fault is recorded. -/
theorem witness_OnlyAResetClearsAFault :
    (∃ s t : State, s.fault ≠ .none ∧ step s = .next t ∧ ∀ rest, s.pending ≠ .reset :: rest) ∧
      ∃ s t : State, s.fault ≠ .none ∧ step s = .next t ∧ t.fault = .none :=
  ⟨⟨{ sw with fault := .illegalOp, pending := [.op 0#32] }, _, by decide, rfl, by simp⟩,
    ⟨{ sw with fault := .illegalOp, pending := [.reset] }, _, by decide, rfl, rfl⟩⟩

theorem witness_PinContractIsNeverReached :
    sr.ddir = .input ∧ sw.ddir = .output ∧ ∃ t, sw.BusInv ∧ sw.fault ≠ .pinContract ∧ exec .lock sw = .next t :=
  ⟨rfl, rfl, _, by decide, by decide, rfl⟩

theorem witness_ControllerResetRestoresTheBlock :
    ∃ (s : State) (rest : List HostInput), s.pending = .reset :: rest ∧ s.fault ≠ .none :=
  ⟨{ sw with fault := .deviceBusy, pending := [.reset] }, [], rfl, by decide⟩

theorem witness_CfgWriteConfiguresTheBus : State.reset.fault = .none := rfl

theorem witness_CfgReadReleasesTheDataPort : sw.fault = .none := rfl

/-- What `WriteCompletesByProtection` asks of a state and an address. -/
abbrev CanWrite (s : State) (a : Addr) (d : Byte) (da : Nat) : Prop :=
  s.fault = .none ∧ s.WriteReady ∧ s.CellAt a da ∧ s.NotBusy ∧ ¬(s.cfg.cmdPrefixGuard = true ∧ s.SpellsCommand a d)

/-- The last cell, for each protection state, and an aliased address. -/
theorem witness_WriteCompletesByProtection :
    (CanWrite swFree 0x1FFF#16 0xFF#8 0x1FFF ∧ swFree.sdp = some .isUnprotected) ∧
      (CanWrite swLocked 0x1FFF#16 0xFF#8 0x1FFF ∧ swLocked.sdp = some .isProtected) ∧
      (CanWrite sw 0x1FFF#16 0xFF#8 0x1FFF ∧ sw.sdp = none) ∧
      CanWrite { sw with cfg := aliasedConfig } 0x2000#16 0x55#8 0 :=
  ⟨by decide, by decide, by decide, by decide⟩

/-- An unknown first cell, and a known last one. -/
theorem witness_ReadCompletesWithTheCell :
    (sr.fault = .none ∧ sr.ReadReady ∧ sr.CellAt 0x0000#16 0 ∧ sr.NotBusy) ∧
      ∃ s : State, s.fault = .none ∧ s.ReadReady ∧ s.CellAt 0x1FFF#16 0x1FFF ∧ s.NotBusy ∧
        Memory.read 0x1FFF s.mem = some 0x3C#8 :=
  ⟨by decide, { sr with mem := [(0x1FFF, 0x3C#8)] }, by decide⟩

/-- Below, at, and above the boundary. -/
theorem witness_DeviceAddressIsInRange :
    (Config.default.wellFormed = true ∧ (0x1FFF#16).toNat < Config.default.devSize) ∧
      (aliasedConfig.wellFormed = true ∧ aliasedConfig.devSize ≤ (0x2000#16).toNat ∧ aliasedConfig.oorPolicy = .aliased) ∧
      devaddr aliasedConfig 0xFFFF#16 = some 0x1FFF := by decide

theorem witness_LatchesAreWrittenMsbFirst :
    (∃ t, sw.BusInv ∧ sw.fault = .none ∧ t.fault = .none ∧ exec (.write 0x1234#16 0x00#8) sw = .next t) ∧
      ∃ t, sr.BusInv ∧ sr.fault = .none ∧ t.fault = .none ∧ exec (.read 0x1234#16) sr = .next t :=
  ⟨⟨_, by decide, rfl, rfl, rfl⟩, ⟨_, by decide, rfl, rfl, rfl⟩⟩

theorem witness_LatchAddrLeavesTheAddress : sw.ddir = .output ∧ sw.LinesIdle := by decide

theorem witness_StrobeCapturesTheDrivenByte :
    (sw.LinesIdle ∧ sw.ddir = .output) ∧ (sr.LinesIdle ∧ sr.ddir = .input) := by decide

theorem witness_PhysicalLevelFollowsPolarity :
    (State.reset.line .we).dir = .input ∧ (sw.line .we).dir = .output ∧ (sw.line .lem).dir = .output := by decide

theorem witness_DataGroupsRecombineTheByte : Config.default.wellFormed = true := by decide

theorem witness_UnlockCompletes :
    sw.cfg.wellFormed = true ∧ sw.fault = .none ∧ sw.WriteReady ∧ sw.NotBusy ∧
      sw.cfg.seqUnlock.getLast? = some (0x1555#16, 0x20#8) := by decide

theorem witness_LockCompletes :
    sw.cfg.wellFormed = true ∧ sw.fault = .none ∧ sw.WriteReady ∧ sw.NotBusy ∧
      sw.cfg.seqLock.getLast? = some (0x1555#16, 0xA0#8) := by decide

/-- What `EraseCompletes` asks of a state. -/
abbrev CanErase (s : State) : Prop :=
  s.cfg.wellFormed = true ∧ s.fault = .none ∧ s.WriteReady ∧ s.NotBusy ∧ s.cfg.seqErase.getLast? = some (0x1555#16, 0x10#8)

/-- Both settings of `SDP_AFTER_ERASE`, and the last cell. -/
theorem witness_EraseCompletes :
    (CanErase sw ∧ sw.cfg.sdpAfterErase = .unchanged ∧ 0x1FFF < sw.cfg.devSize) ∧
      CanErase { sw with cfg := { Config.default with sdpAfterErase := .draw } } := by decide

theorem witness_DelayCompletesInEveryMode : State.reset.fault = .none ∧ swBusy.fault = .none := by decide

/-- One completing instance of every operation, in a state that meets the bus invariant. -/
theorem witness_completed :
    ∀ i ∈ [Instr.cfgWrite, .cfgRead, .write 3#16 0x77#8, .unlock, .lock, .erase, .delayMs 10#16],
      ∃ t, swSmall.BusInv ∧ swSmall.cfg.wellFormed = true ∧ swSmall.fault = .none ∧ exec i swSmall = .next t ∧
        t.fault = .none := by
  have hb : swSmall.BusInv := by decide
  have hw : swSmall.cfg.wellFormed = true := by decide
  intro i hi
  simp only [List.mem_cons, List.not_mem_nil, or_false] at hi
  rcases hi with rfl | rfl | rfl | rfl | rfl | rfl | rfl <;> exact ⟨_, hb, hw, rfl, rfl, rfl⟩

theorem witness_completed_read :
    ∃ t, sr.BusInv ∧ sr.cfg.wellFormed = true ∧ sr.fault = .none ∧ exec (.read 0x1FFF#16) sr = .next t ∧ t.fault = .none :=
  ⟨_, by decide, by decide, rfl, rfl, rfl⟩

/-- Hypotheses of `OnlyTheListedOperationsWriteEachElement` (and, clause by clause, its operations): `witness_completed`. -/
theorem witness_OnlyTheListedOperationsWriteEachElement :
    ∃ t, swSmall.BusInv ∧ swSmall.cfg.wellFormed = true ∧ swSmall.fault = .none ∧ exec .erase swSmall = .next t ∧
      t.fault = .none ∧ swSmall.cfg.sdpAfterErase = .unchanged :=
  ⟨_, by decide, by decide, rfl, rfl, rfl, rfl⟩

/-- Strict mode with a `WRITE`, and no strict mode. -/
theorem witness_BusyTimeBeginsAndEnds :
    (∃ s t : State, s.BusInv ∧ s.cfg.wellFormed = true ∧ s.fault = .none ∧ exec (.write 0#16 1#8) s = .next t ∧
        t.fault = .none ∧ s.cfg.strictWriteCycle = true) ∧
      ∃ t, sw.BusInv ∧ sw.cfg.wellFormed = true ∧ sw.fault = .none ∧ exec .cfgRead sw = .next t ∧ t.fault = .none ∧
        sw.cfg.strictWriteCycle = false ∧ sw.busy = false :=
  ⟨⟨{ sw with cfg := strictConfig }, _, by decide, by decide, rfl, rfl, rfl, rfl⟩,
    ⟨_, by decide, by decide, rfl, rfl, rfl, rfl, rfl⟩⟩

/-- A delay at the bound, `n = T_WC_MS = 10`. -/
theorem witness_BusyEndsOnlyByDelayOrCommand :
    ∃ s t : State, s.BusInv ∧ s.cfg.wellFormed = true ∧ step s = .next t ∧ s.busy = true ∧ t.busy = false :=
  ⟨issued 0x80000A00 swBusy, _, by decide, by decide, rfl, rfl, rfl⟩

theorem witness_DelayContentOfEachOperation :
    ∃ t, sw.BusInv ∧ sw.cfg.wellFormed = true ∧ sw.fault = .none ∧ exec .unlock sw = .next t ∧ t.fault = .none :=
  ⟨_, by decide, by decide, rfl, rfl, rfl⟩

theorem witness_NoBranchOnDeviceState :
    ∃ t, swLocked.BusInv ∧ swLocked.cfg.wellFormed = true ∧ (∀ a, Instr.write 0x1234#16 0xAB#8 ≠ .read a) ∧
      exec (.write 0x1234#16 0xAB#8) swLocked = .next t :=
  ⟨_, by decide, by decide, by simp, rfl⟩

/-- The last address in range. -/
theorem witness_WrittenByteReadsBack :
    swFree.WriteReady ∧ swFree.fault = .none ∧ swFree.sdp = some .isUnprotected ∧ swFree.cfg.strictWriteCycle = false ∧
      (0x1FFF#16).toNat < swFree.cfg.devSize ∧
      ¬(swFree.cfg.cmdPrefixGuard = true ∧ swFree.SpellsCommand 0x1FFF#16 0xFF#8) := by decide

theorem witness_ProtectionFollowsLockAndUnlock :
    sw.cfg.wellFormed = true ∧ sw.WriteReady ∧ sw.fault = .none ∧ sw.cfg.strictWriteCycle = false ∧
      sw.CellAt 0x1FFF#16 0x1FFF ∧ ¬(sw.cfg.cmdPrefixGuard = true ∧ sw.SpellsCommand 0x1FFF#16 0xCD#8) := by decide

theorem witness_ErasedDeviceReadsFF :
    sw.cfg.wellFormed = true ∧ sw.WriteReady ∧ sw.fault = .none ∧ sw.NotBusy ∧ (0x1FFF#16).toNat < sw.cfg.devSize := by
  decide

/-- The three cases of the bus invariant, each with an operation word that steps to a next state. -/
theorem witness_EveryStepKeepsTheInvariant :
    (∃ s t : State, s.Inv ∧ s.WriteReady ∧ step s = .next t) ∧ (∃ s t : State, s.Inv ∧ s.ReadReady ∧ step s = .next t) ∧
      ∃ s t : State, s.Inv ∧ s.Unconfigured ∧ step s = .next t :=
  ⟨⟨issued 0x301234AB sw, _, by decide, by decide, rfl⟩, ⟨issued 0x40000000 sr, _, by decide, by decide, rfl⟩,
    ⟨issued 0x10000000 State.reset, _, by decide, by decide, rfl⟩⟩

theorem witness_EveryStepKeepsMemoryCanonical :
    ∃ t, Memory.wf (issued 0x301234AB swLocked).mem = true ∧ step (issued 0x301234AB swLocked) = .next t :=
  ⟨_, by decide, rfl⟩

theorem witness_NoStepFromTheInvariantStops : (issued 0x70000000 sw).Inv ∧ sr.Inv ∧ sr.pending = [] := by decide

theorem witness_ParametersNeverChange : ∃ t, step (issued 0x10000000 State.reset) = .next t := ⟨_, rfl⟩

/-- A completing and a faulting word. -/
theorem witness_OpcCountsCompletedOperations :
    (∃ (s t : State) (w : Word) (rest : List HostInput), s.BusInv ∧ s.pending = .op w :: rest ∧ step s = .next t ∧ s.fault = .none ∧ t.fault = .none) ∧
      ∃ (s t : State) (w : Word) (rest : List HostInput), s.BusInv ∧ s.pending = .op w :: rest ∧ step s = .next t ∧ t.fault ≠ .none :=
  ⟨⟨issued 0x10000000 sw, _, _, _, by decide, rfl, rfl, rfl, rfl⟩,
    ⟨issued 0x40000000 sw, _, _, _, by decide, rfl, rfl, by decide⟩⟩

theorem witness_EveryOperationReturnsOneResponse :
    ∃ (s t : State) (w : Word) (rest : List HostInput), s.BusInv ∧ s.pending = .op w :: rest ∧ step s = .next t :=
  ⟨issued 0x40000000 sr, _, _, _, by decide, rfl, rfl⟩

theorem witness_PinsAreNeverInContention :
    ∃ t, sr.BusInv ∧ sr.cfg.wellFormed = true ∧ exec (.read 0#16) sr = .next t :=
  ⟨_, by decide, by decide, rfl⟩

/-- One witness per operation of the statement. -/
theorem witness_LatchedAddressIsKnownAfterACycle :
    (∃ t, sr.BusInv ∧ sr.cfg.wellFormed = true ∧ sr.fault = .none ∧ t.fault = .none ∧ exec (.read 0x1FFF#16) sr = .next t) ∧
      ∀ i ∈ [Instr.write 3#16 0x77#8, .unlock, .lock, .erase], ∃ t, swSmall.BusInv ∧ swSmall.cfg.wellFormed = true ∧
        swSmall.fault = .none ∧ t.fault = .none ∧ exec i swSmall = .next t := by
  have hb : swSmall.BusInv := by decide
  have hw : swSmall.cfg.wellFormed = true := by decide
  refine ⟨⟨_, by decide, by decide, rfl, rfl, rfl⟩, fun i hi => ?_⟩
  simp only [List.mem_cons, List.not_mem_nil, or_false] at hi
  rcases hi with rfl | rfl | rfl | rfl <;> exact ⟨_, hb, hw, rfl, rfl, rfl⟩

theorem witness_PseudoInstructionsExpand : { Config.default with tWcMs := 65535 }.tWcMs ≤ 65535 := by decide

theorem witness_OutOfRangeNumbersAreAssemblyErrors : 65535 < 65536 ∧ 255 < 256 := by decide

end Sys2Proof.Tests
end

section
/-! PROOF. One equation per case of issuing: what the block does with an operation word, with the host's next input, and in a
step. -/

namespace Sys2Proof.Machine

/-- 30 R85: a word that spells an operation is executed as that operation. -/
theorem issueWord_of_decode_eq_some {w : Word} {i : Instr} (h : decode w = some i) (s : State) : issueWord w s = exec i s := by
  simp only [issueWord, h]

/-- 30 R85, 60 R178: a word that spells none is executed as `Illegal`. -/
theorem issueWord_of_decode_eq_none {w : Word} (h : decode w = none) (s : State) : issueWord w s = execIllegal w s := by
  simp only [issueWord, h]

@[simp] theorem acceptInput_op (w : Word) (s : State) : acceptInput (.op w) s = issueWord w s := rfl

@[simp] theorem acceptInput_reset (s : State) : acceptInput .reset s = .next (controllerReset s) := rfl

theorem step_of_pending_eq_nil {s : State} (h : s.pending = []) : step s = .refused .noOperationIssued := by
  simp only [step, h]

theorem step_of_pending_eq_cons {s : State} {x : HostInput} {rest : List HostInput} (h : s.pending = x :: rest) :
    step s = acceptInput x { s with pending := rest } := by
  simp only [step, h]

/-- Issuing a word changes nothing but the front of the stream, so a step takes the stream back to what it was. -/
theorem step_issueNext (w : Word) (s : State) : step (issueNext w s) = issueWord w s := rfl

/-- A 32-bit word is issued whole: no bit of it is cut off. -/
theorem withFetchWord_toNat (w : Word) (s : State) : s.withFetchWord 32 w.toNat = issueNext w s := by
  have hw : w.toNat % 2 ^ 32 = w.toNat := Nat.mod_eq_of_lt w.isLt
  rw [State.withFetchWord, hw, BitVec.ofNat_toNat, BitVec.setWidth_eq]

/-- Settles O7, clause by clause from what a step does with the front of the stream. -/
theorem stepRunsTheIssuedOperation : Obligations.StepRunsTheIssuedOperation := by
  intro s
  refine ⟨fun w rest i hp hd => ?_, fun w i hd => ?_, fun rest hp => ?_, step_of_pending_eq_nil⟩
  · rw [step_of_pending_eq_cons hp, acceptInput_op, issueWord_of_decode_eq_some hd]
  · rw [withFetchWord_toNat, step_issueNext, issueWord_of_decode_eq_some hd]
  · rw [step_of_pending_eq_cons hp, acceptInput_reset]

end Sys2Proof.Machine
end

section
/-! PROOF. Every operation is the frame of 60 R172 with checks and a body of its own: which faults the checks can give, what a
body can answer, and so everything that issuing a word can do to a state, whatever the state. -/

namespace Sys2Proof.Machine

/-- The checks operation `i` makes before its first event. -/
def checksOf : Instr → State → Option FaultCode
  | .cfgWrite => noChecks
  | .cfgRead => noChecks
  | .write a d => writeChecks a d
  | .read a => readChecks a
  | .unlock => commandChecks
  | .lock => commandChecks
  | .erase => commandChecks
  | .delayMs _ => noChecks

/-- What operation `i` does once its checks have passed. -/
def bodyOf : Instr → State → Micro Response
  | .cfgWrite => fun s => (pCfgOutData (idleLines s)).andThen fun _ s => .done .ok (s.setMode .write)
  | .cfgRead => fun s => .done .ok ((pCfgInData (idleLines s)).setMode .read)
  | .write a d => fun s => (writeCycle a d .data s).andThen fun _ s => .done .ok s
  | .read a => fun s => (readCycle a s).andThen fun v s => .done (.data v) s
  | .unlock => fun s => issueSequence .unlock s.cfg.seqUnlock s.cfg.tUnlockMs s
  | .lock => fun s => issueSequence .lock s.cfg.seqLock s.cfg.tLockMs s
  | .erase => fun s => issueSequence .erase s.cfg.seqErase s.cfg.tEraseMs s
  | .delayMs n => fun s => .done .ok (endWriteCycle n.toNat (sleepMs n.toNat s))

theorem exec_eq_operation (i : Instr) (s : State) : exec i s = operation (encode i) (checksOf i) (bodyOf i) s := by
  cases i <;> rfl

/-- A list of checks whose codes are real faults other than `PIN_CONTRACT` gives no other. -/
theorem firstFault_code {l : List (Bool × FaultCode)} {c : FaultCode} (h : firstFault l = some c)
    (hl : ∀ p ∈ l, p.2 ≠ .none ∧ p.2 ≠ .pinContract) : c ≠ .none ∧ c ≠ .pinContract :=
  hl _ (firstFault_eq_some h)

/-- A check gives a real fault, and never `PIN_CONTRACT` (60 R172, R183). -/
theorem checksOf_code {i : Instr} {s : State} {c : FaultCode} (h : checksOf i s = some c) :
    c ≠ .none ∧ c ≠ .pinContract := by
  cases i with
  | cfgWrite | cfgRead | delayMs => cases h
  | write a d => exact firstFault_code h (by simp [modeCheck, rangeCheck, busyCheck, prefixCheck])
  | read a => exact firstFault_code h (by simp [modeCheck, rangeCheck, busyCheck])
  | unlock | lock | erase => exact firstFault_code h (by simp [modeCheck, busyCheck])

theorem bodyOf_from (i : Instr) (s : State) : (bodyOf i s).From s := by
  cases i with
  | cfgWrite =>
    rw [bodyOf]
    exact .of_within (idleLines_within s) ((pCfgOutData_from _).andThen fun _ t => setMode_within .write t)
  | cfgRead => exact ((idleLines_within s).trans (pCfgInData_within _)).trans (setMode_within .read _)
  | write a d => exact (writeCycle_from a d .data s).andThen fun _ t => .refl t
  | read a => exact (readCycle_from a s).andThen fun _ t => .refl t
  | unlock | lock | erase => exact issueSequence_from _ _ _ s
  | delayMs n => exact (emit_within (.sleepMs n.toNat) s).trans (endWriteCycle_within n.toNat _)

/-- The response of a completed operation: `Data` for `READ`, `Ok` for every other (10 R33). -/
inductive Returns : Instr → Response → Prop
  | data (a : Addr) (v : Byte) : Returns (.read a) (.data v)
  | ok {i : Instr} (notRead : ∀ a, i ≠ .read a) : Returns i .ok

theorem Micro.eq_done_of_andThen {α β : Type} {m : Micro α} {k : α → State → Micro β} {b : β} {u : State}
    (h : m.andThen k = .done b u) : ∃ a t, k a t = .done b u := by
  cases m with
  | done a t => exact ⟨a, t, h⟩
  | raised c t => cases h
  | stuck f => cases h

theorem bodyOf_returns {i : Instr} {s u : State} {r : Response} (h : bodyOf i s = .done r u) : Returns i r := by
  cases i with
  | cfgRead | delayMs => cases h; exact .ok (by simp)
  | read a => obtain ⟨v, t, hk⟩ := Micro.eq_done_of_andThen h; cases hk; exact .data a v
  | cfgWrite | write | unlock | lock | erase =>
    simp only [bodyOf, issueSequence] at h
    obtain ⟨_, t, hk⟩ := Micro.eq_done_of_andThen h
    cases hk
    exact .ok (by simp)

/-- What a block can answer to a word that decodes to `o`, and the state it is in afterwards: the word is refused by a halted
block, raises a fault, or completes as the operation it spells (60 R172 to R175). -/
inductive State.Replies (s : State) (o : Option Instr) : Response → State → Prop
  | refused (halted : s.fault ≠ .none) : s.Replies o .refused (s.respond .refused)
  | faulted {c : FaultCode} {w : Word} {u : State} (running : s.fault = .none) (real : c ≠ .none) (within : s.Within u) :
      s.Replies o (.faulted c) (raiseFault c w u)
  | completed {i : Instr} {r : Response} {u : State} (running : s.fault = .none) (decoded : o = some i) (returns : Returns i r)
      (within : s.Within u) : s.Replies o r (complete r u)

theorem exec_replies {i : Instr} {s t : State} (h : exec i s = .next t) : ∃ r, s.Replies (some i) r t := by
  have hfrom := bodyOf_from i s
  rw [exec_eq_operation] at h
  rcases operation_next h with ⟨hf, rfl⟩ | ⟨hf, c, hc, rfl⟩ | ⟨hf, _, r, u, hd, rfl⟩ | ⟨hf, _, c, u, hd, rfl⟩
  · exact ⟨_, .refused hf⟩
  · exact ⟨_, .faulted hf (checksOf_code hc).1 (.refl s)⟩
  · rw [hd] at hfrom
    exact ⟨r, .completed hf rfl (bodyOf_returns hd) hfrom⟩
  · rw [hd] at hfrom
    obtain ⟨rfl, hw⟩ := hfrom
    exact ⟨_, .faulted hf (by decide) hw⟩

/-- A word that spells no operation is refused by a halted block, and faults otherwise (60 R175, R178). -/
theorem execIllegal_eq (w : Word) (s : State) :
    execIllegal w s = .next (if s.fault = .none then raiseFault .illegalOp w s else s.respond .refused) := by
  by_cases hf : s.fault = .none
  · rw [if_pos hf]; exact operation_checked w _ hf rfl
  · rw [if_neg hf]; exact operation_halted w _ _ hf

theorem issueWord_replies {w : Word} {s t : State} (h : issueWord w s = .next t) : ∃ r, s.Replies (decode w) r t := by
  cases hd : decode w with
  | some i => exact exec_replies (issueWord_of_decode_eq_some hd s ▸ h)
  | none =>
    rw [issueWord_of_decode_eq_none hd, execIllegal_eq] at h
    cases h
    split
    · exact ⟨_, .faulted ‹_› (by decide) (.refl s)⟩
    · exact ⟨_, .refused ‹_›⟩

/-- A step that goes on executes a word or resets the controller (70 R221). -/
theorem step_next {s t : State} (h : step s = .next t) :
    (∃ w rest, s.pending = .op w :: rest ∧ issueWord w { s with pending := rest } = .next t) ∨
      ∃ rest, s.pending = .reset :: rest ∧ t = controllerReset { s with pending := rest } := by
  cases hp : s.pending with
  | nil => rw [step_of_pending_eq_nil hp] at h; cases h
  | cons x rest =>
    rw [step_of_pending_eq_cons hp] at h
    cases x with
    | op w => exact .inl ⟨w, rest, rfl, h⟩
    | reset => cases h; exact .inr ⟨rest, rfl, rfl⟩

theorem step_replies {s t : State} {w : Word} {rest : List HostInput} (hp : s.pending = .op w :: rest)
    (h : step s = .next t) : ∃ r, ({ s with pending := rest } : State).Replies (decode w) r t :=
  issueWord_replies ((step_of_pending_eq_cons hp).symm.trans h)

theorem State.Replies.wf_mem {s t : State} {o : Option Instr} {r : Response} (h : s.Replies o r t)
    (hm : Memory.wf s.mem = true) : Memory.wf t.mem = true := by
  cases h with
  | refused halted => exact hm
  | faulted running real within => exact within.wf hm
  | completed running decoded returns within => exact within.wf hm

theorem State.Replies.responses {s t : State} {o : Option Instr} {r : Response} (h : s.Replies o r t) :
    t.responses = s.responses ++ [r] := by
  cases h with
  | refused halted => rfl
  | faulted running real within => simp [within.responses]
  | completed running decoded returns within => simp [within.responses]

/-- Settles O43: a word keeps the canonical form by `State.Replies.wf_mem`, and a controller reset leaves the cells alone. -/
theorem everyStepKeepsMemoryCanonical : Obligations.EveryStepKeepsMemoryCanonical := by
  intro s t hm h
  rcases step_next h with ⟨w, rest, _, hword⟩ | ⟨rest, _, rfl⟩
  · obtain ⟨r, hr⟩ := issueWord_replies hword
    exact hr.wf_mem hm
  · exact hm

/-- Settles O46, answer by answer. -/
theorem opcCountsCompletedOperations : Obligations.OpcCountsCompletedOperations := by
  intro s t w rest _ hp h
  obtain ⟨r, hr⟩ := step_replies hp h
  cases hr with
  | refused halted => exact ⟨fun hs _ => absurd hs halted, fun _ => rfl⟩
  | faulted running real within => exact ⟨fun _ ht => absurd ht real, fun _ => within.opc⟩
  | completed running decoded returns within =>
    exact ⟨fun _ _ => congrArg (· + 1) within.opc, fun ht => absurd (within.fault.trans running) ht⟩

/-- Settles O47, answer by answer. -/
theorem everyOperationReturnsOneResponse : Obligations.EveryOperationReturnsOneResponse := by
  intro s t w rest _ hp h
  obtain ⟨r, hr⟩ := step_replies hp h
  refine ⟨r, hr.responses, ?_⟩
  cases hr with
  | refused halted => simpa using halted
  | faulted running real within => simpa [show s.fault = .none from running] using real
  | completed running decoded returns within =>
    have ht := within.fault.trans running
    cases returns with
    | data a v => simp_all
    | ok notRead => simp_all

end Sys2Proof.Machine
end

section
/-! PROOF. The state each operation completes with, written out, and that from the bus invariant and a well-formed configuration
every operation gives a next state: it is refused, it raises the fault of a check, or it completes (60 R170, R172). -/

namespace Sys2Proof.Machine

/-- The pairs of a command (42 R151). -/
def sequenceOf (c : Config) : CommandName → CommandList
  | .unlock => c.seqUnlock
  | .lock => c.seqLock
  | .erase => c.seqErase

/-- The settle delay of a command (00 R6). -/
def settleOf (c : Config) : CommandName → Nat
  | .unlock => c.tUnlockMs
  | .lock => c.tLockMs
  | .erase => c.tEraseMs

/-- After a mode switch (41 R130, R131). -/
def State.switched (m : Mode) (d : Dir) (s : State) : State :=
  { s with
    mode := m
    ddir := d
    we := ⟨.output, .deasserted⟩
    re := ⟨.output, .deasserted⟩
    lem := ⟨.output, .deasserted⟩
    lel := ⟨.output, .deasserted⟩
    trace := s.trace ++ modeSwitchTrace d }

/-- After `WRITE a, d` at device address `da` (41 R132). -/
def State.written (a : Addr) (da : Nat) (d : Byte) (s : State) : State :=
  memWrite da d { s with
    dout := d
    latM := some (addrHigh a)
    latL := some (addrLow a)
    trace := s.trace ++ writeTrace a da d }

/-- After `READ a` at device address `da` (41 R133). -/
def State.sampled (a : Addr) (da : Nat) (s : State) : State :=
  { s with
    ddir := .input
    dout := addrLow a
    latM := some (addrHigh a)
    latL := some (addrLow a)
    draws := (memReadState da s).draws
    trace := s.trace ++ readTrace a da s.cfg.readSettleNops (memReadByte da s) }

/-- After a command (42 R150): the bus and the latches hold the last pair, and the device has applied it. -/
def State.commanded (c : CommandName) (s : State) : State :=
  devCommand c { s with
    dout := ((sequenceOf s.cfg c).getLast?.map Prod.snd).getD s.dout
    latM := ((sequenceOf s.cfg c).getLast?.map fun p => some (addrHigh p.1)).getD s.latM
    latL := ((sequenceOf s.cfg c).getLast?.map fun p => some (addrLow p.1)).getD s.latL
    trace := s.trace ++ sequenceTrace c (sequenceOf s.cfg c) (settleOf s.cfg c) }

/-- Operation `i` completes from `s` with response `r` in state `u`, before `OPC` and the response are recorded. -/
inductive State.Completes (s : State) : Instr → Response → State → Prop
  | cfgWrite : s.Completes .cfgWrite .ok (s.switched .write .output)
  | cfgRead : s.Completes .cfgRead .ok (s.switched .read .input)
  | write {a : Addr} {d : Byte} {da : Nat} (ready : s.WriteReady) (cell : s.CellAt a da) :
      s.Completes (.write a d) .ok (s.written a da d)
  | read {a : Addr} {da : Nat} (ready : s.ReadReady) (cell : s.CellAt a da) :
      s.Completes (.read a) (.data (memReadByte da s)) (s.sampled a da)
  | unlock (ready : s.WriteReady) : s.Completes .unlock .ok (s.commanded .unlock)
  | lock (ready : s.WriteReady) : s.Completes .lock .ok (s.commanded .lock)
  | erase (ready : s.WriteReady) : s.Completes .erase .ok (s.commanded .erase)
  | delayMs (n : BitVec 16) : s.Completes (.delayMs n) .ok (endWriteCycle n.toNat (sleepMs n.toNat s))

/-- The control lines of a mode switch, from any state: they end idle, after eight events (41 R130). -/
theorem idleLines_eq (s : State) :
    idleLines s = { s with
      we := ⟨.output, .deasserted⟩
      re := ⟨.output, .deasserted⟩
      lem := ⟨.output, .deasserted⟩
      lel := ⟨.output, .deasserted⟩
      trace := s.trace ++ [.event (.deasserts .we), .event (.dirLine .we .output), .event (.deasserts .re),
        .event (.dirLine .re .output), .event (.deasserts .lem), .event (.dirLine .lem .output),
        .event (.deasserts .lel), .event (.dirLine .lel .output)] } := by
  simp [idleLines, idleLine, pDisable, pCfgOutLine, State.setLine, State.emit, State.line]

theorem bodyOf_cfgWrite (s : State) : bodyOf .cfgWrite s = .done .ok (s.switched .write .output) := by
  simp [bodyOf, idleLines_eq, pCfgOutData, checkContention, State.contention, State.setDdir, State.emit, State.setMode,
    State.switched, modeSwitchTrace]

theorem bodyOf_cfgRead (s : State) : bodyOf .cfgRead s = .done .ok (s.switched .read .input) := by
  simp [bodyOf, idleLines_eq, pCfgInData, State.setDdir, State.emit, State.setMode, State.switched, modeSwitchTrace]

theorem bodyOf_write {a : Addr} {d : Byte} {s : State} {da : Nat} (hr : s.WriteReady) (ha : s.CellAt a da) :
    bodyOf (.write a d) s = .done .ok (s.written a da d) := by
  obtain ⟨_, hd, hi⟩ := hr
  simp [bodyOf, writeCycle_done a d .data hd hi ha, deviceWrite, State.react, State.written, writeTrace]

theorem bodyOf_read {a : Addr} {s : State} {da : Nat} (hr : s.ReadReady) (ha : s.CellAt a da) :
    bodyOf (.read a) s = .done (.data (memReadByte da s)) (s.sampled a da) := by
  obtain ⟨_, _, hi⟩ := hr
  simp [bodyOf, readCycle_done a hi ha, State.sampled]

theorem sequenceOf_ok {c : Config} (hw : c.wellFormed = true) (n : CommandName) :
    c.commandListOk (sequenceOf c n) = true := by
  simp only [Config.wellFormed, Bool.and_eq_true] at hw
  cases n <;> simp [sequenceOf, hw]

/-- `ISSUE_SEQUENCE` of a command's own list and delay (42 R150). -/
theorem issueSequence_done (c : CommandName) {s : State} (hw : s.cfg.wellFormed = true) (hr : s.WriteReady) :
    issueSequence c (sequenceOf s.cfg c) (settleOf s.cfg c) s = .done .ok (s.commanded c) := by
  obtain ⟨_, hd, hi⟩ := hr
  have hcells := commandList_cells hw (sequenceOf_ok hw c)
  simp [issueSequence, issuePairs_done _ hd hi hcells, sleepMs, State.emit, State.react, State.commanded, sequenceTrace]

/-- When the range check passes, the device has a cell at the address (41 R140). -/
theorem cellAt_of_rangeCheck {a : Addr} {s : State} (h : (rangeCheck a s).1 = false) : ∃ da, s.CellAt a da := by
  simp only [rangeCheck, Bool.and_eq_false_iff, beq_eq_false_iff_ne] at h
  unfold State.CellAt devaddr
  by_cases hr : outOfRange s.cfg a = true
  · rw [if_pos hr]
    cases hp : s.cfg.oorPolicy with
    | fault => simp_all
    | aliased => exact ⟨_, rfl⟩
  · exact ⟨_, if_neg hr⟩

theorem cellAt_of_writeChecks {a : Addr} {d : Byte} {s : State} (h : writeChecks a d s = none) : ∃ da, s.CellAt a da :=
  cellAt_of_rangeCheck (firstFault_eq_none h (rangeCheck a s) (by simp))

theorem cellAt_of_readChecks {a : Addr} {s : State} (h : readChecks a s = none) : ∃ da, s.CellAt a da :=
  cellAt_of_rangeCheck (firstFault_eq_none h (rangeCheck a s) (by simp))

/-- When its checks pass, an operation completes: nothing it does is stuck or breaks a pin contract (60 R170, R173). -/
theorem bodyOf_completes {i : Instr} {s : State} (hb : s.BusInv) (hw : s.cfg.wellFormed = true)
    (hc : checksOf i s = none) : ∃ r u, s.Completes i r u ∧ bodyOf i s = .done r u := by
  have hcommand (hk : commandChecks s = none) : s.WriteReady := writeReady_of_mode hb (mode_of_commandChecks hk)
  cases i with
  | cfgWrite => exact ⟨_, _, .cfgWrite, bodyOf_cfgWrite s⟩
  | cfgRead => exact ⟨_, _, .cfgRead, bodyOf_cfgRead s⟩
  | write a d =>
    have hr := writeReady_of_mode hb (mode_of_writeChecks hc)
    obtain ⟨da, ha⟩ := cellAt_of_writeChecks hc
    exact ⟨_, _, .write hr ha, bodyOf_write hr ha⟩
  | read a =>
    have hr := readReady_of_mode hb (mode_of_readChecks hc)
    obtain ⟨da, ha⟩ := cellAt_of_readChecks hc
    exact ⟨_, _, .read hr ha, bodyOf_read hr ha⟩
  | unlock => exact ⟨_, _, .unlock (hcommand hc), issueSequence_done .unlock hw (hcommand hc)⟩
  | lock => exact ⟨_, _, .lock (hcommand hc), issueSequence_done .lock hw (hcommand hc)⟩
  | erase => exact ⟨_, _, .erase (hcommand hc), issueSequence_done .erase hw (hcommand hc)⟩
  | delayMs n => exact ⟨_, _, .delayMs n, rfl⟩

/-- How a block on a sound bus answers a word that decodes to `o`: it is halted and refuses, a check fails and nothing but the
fault record changes, or the operation completes (60 R173). -/
inductive State.Answers (s : State) (o : Option Instr) : State → Prop
  | refused (halted : s.fault ≠ .none) : s.Answers o (s.respond .refused)
  | faulted {c : FaultCode} {w : Word} (running : s.fault = .none) (code : c ≠ .none ∧ c ≠ .pinContract) :
      s.Answers o (raiseFault c w s)
  | completed {i : Instr} {r : Response} {u : State} (running : s.fault = .none) (decoded : o = some i)
      (completes : s.Completes i r u) : s.Answers o (complete r u)

theorem exec_total {s : State} (hb : s.BusInv) (hw : s.cfg.wellFormed = true) (i : Instr) :
    ∃ t, exec i s = .next t ∧ s.Answers (some i) t := by
  rw [exec_eq_operation]
  by_cases hf : s.fault = .none
  · cases hc : checksOf i s with
    | some c => exact ⟨_, operation_checked _ _ hf hc, .faulted hf (checksOf_code hc)⟩
    | none =>
      obtain ⟨r, u, hu, hd⟩ := bodyOf_completes hb hw hc
      rw [operation_passed _ _ hf hc, hd]
      exact ⟨_, rfl, .completed hf rfl hu⟩
  · exact ⟨_, operation_halted _ _ _ hf, .refused hf⟩

theorem exec_answers {s t : State} {i : Instr} (hb : s.BusInv) (hw : s.cfg.wellFormed = true) (h : exec i s = .next t) :
    s.Answers (some i) t := by
  obtain ⟨t', ht, ha⟩ := exec_total hb hw i
  cases ht.symm.trans h
  exact ha

theorem issueWord_total {s : State} (hb : s.BusInv) (hw : s.cfg.wellFormed = true) (w : Word) :
    ∃ t, issueWord w s = .next t ∧ s.Answers (decode w) t := by
  cases hd : decode w with
  | some i => exact issueWord_of_decode_eq_some hd s ▸ exec_total hb hw i
  | none =>
    rw [issueWord_of_decode_eq_none hd, execIllegal_eq]
    refine ⟨_, rfl, ?_⟩
    split
    · exact .faulted ‹_› (by decide)
    · exact .refused ‹_›

theorem issueWord_answers {s t : State} {w : Word} (hb : s.BusInv) (hw : s.cfg.wellFormed = true)
    (h : issueWord w s = .next t) : s.Answers (decode w) t := by
  obtain ⟨t', ht, ha⟩ := issueWord_total hb hw w
  cases ht.symm.trans h
  exact ha

/-- Settles O44: a word is answered by `issueWord_total`, and a controller reset always resets. -/
theorem noStepFromTheInvariantStops : Obligations.NoStepFromTheInvariantStops := by
  rintro s ⟨hw, hb, -⟩
  cases hp : s.pending with
  | nil => exact .inr ⟨rfl, step_of_pending_eq_nil hp⟩
  | cons x rest =>
    rw [step_of_pending_eq_cons hp]
    cases x with
    | op w =>
      obtain ⟨t, ht, -⟩ := issueWord_total (s := { s with pending := rest }) hb hw w
      exact .inl ⟨t, ht⟩
    | reset => exact .inl ⟨_, rfl⟩

end Sys2Proof.Machine
end

section
/-! PROOF. What a completed operation keeps, element by element (the write columns of 10 R35), and the machine's invariant. -/

namespace Sys2Proof.Machine

variable {s u : State} {i : Instr} {r : Response}

/-- What a command leaves alone. -/
theorem commanded_keeps (c : CommandName) (s : State) :
    s.Within (s.commanded c) ∧ (s.commanded c).mode = s.mode ∧ (s.commanded c).ddir = s.ddir ∧
      (s.commanded c).we = s.we ∧ (s.commanded c).re = s.re ∧ (s.commanded c).lem = s.lem ∧
      (s.commanded c).lel = s.lel := by
  refine ⟨.trans ?_ (devCommand_within c _), ?_⟩
  · exact .of_eqs rfl rfl rfl rfl rfl rfl rfl rfl
  · cases c <;> exact ⟨rfl, rfl, rfl, rfl, rfl, rfl⟩

theorem State.Completes.within (h : s.Completes i r u) : s.Within u := by
  cases h with
  | cfgWrite | cfgRead | read | delayMs => exact .of_eqs rfl rfl rfl rfl rfl rfl rfl rfl
  | write ready cell =>
    refine .trans ?_ (memWrite_within _ _ _)
    exact .of_eqs rfl rfl rfl rfl rfl rfl rfl rfl
  | unlock | lock | erase => exact (commanded_keeps _ s).1

/-- Only the mode switches change the mode and the directions and levels of the bus. -/
theorem State.Completes.keeps_bus (h : s.Completes i r u) (hw : i ≠ .cfgWrite) (hr : i ≠ .cfgRead) :
    u.mode = s.mode ∧ u.ddir = s.ddir ∧ u.we = s.we ∧ u.re = s.re ∧ u.lem = s.lem ∧ u.lel = s.lel := by
  cases h with
  | cfgWrite => exact absurd rfl hw
  | cfgRead => exact absurd rfl hr
  | read ready cell => exact ⟨rfl, ready.2.1.symm, rfl, rfl, rfl, rfl⟩
  | write | delayMs => exact ⟨rfl, rfl, rfl, rfl, rfl, rfl⟩
  | unlock | lock | erase => exact (commanded_keeps _ s).2

/-- The mode switches and `DELAY_MS` put no byte on the lines and strobe no latch. -/
theorem State.Completes.keeps_latches (h : s.Completes i r u) (hi : i = .cfgWrite ∨ i = .cfgRead ∨ ∃ n, i = .delayMs n) :
    u.dout = s.dout ∧ u.latM = s.latM ∧ u.latL = s.latL := by
  cases h with
  | cfgWrite | cfgRead | delayMs => exact ⟨rfl, rfl, rfl⟩
  | write | read | unlock | lock | erase => simp at hi

/-- Only `WRITE` and `ERASE` change cells. -/
theorem State.Completes.keeps_mem (h : s.Completes i r u) (hw : ∀ a d, i ≠ .write a d) (he : i ≠ .erase) :
    u.mem = s.mem := by
  cases h with
  | cfgWrite | cfgRead | read | unlock | lock | delayMs => rfl
  | write => exact absurd rfl (hw _ _)
  | erase => exact absurd rfl he

/-- Only `UNLOCK`, `LOCK` and, when `SDP_AFTER_ERASE` is `Draw`, `ERASE` change the protection state. -/
theorem State.Completes.keeps_sdp (h : s.Completes i r u) (hu : i ≠ .unlock) (hl : i ≠ .lock)
    (he : i = .erase → s.cfg.sdpAfterErase = .unchanged) : u.sdp = s.sdp := by
  cases h with
  | cfgWrite | cfgRead | write | read | delayMs => rfl
  | unlock => exact absurd rfl hu
  | lock => exact absurd rfl hl
  | erase ready => simp [State.commanded, devCommand, sdpAfterErase, he rfl]

/-- The mode switches and `READ` leave the device's busy time alone. -/
theorem State.Completes.keeps_busy (h : s.Completes i r u) (hi : i = .cfgWrite ∨ i = .cfgRead ∨ ∃ a, i = .read a) :
    u.busy = s.busy := by
  cases h with
  | cfgWrite | cfgRead | read => rfl
  | write | unlock | lock | erase | delayMs => simp at hi

/-- Settles O34, each column of the table by the lemma about that element. -/
theorem onlyTheListedOperationsWriteEachElement : Obligations.OnlyTheListedOperationsWriteEachElement := by
  intro s t i hb hw hs h ht
  cases exec_answers hb hw h with
  | refused halted => exact absurd hs halted
  | faulted running code => exact absurd ht code.1
  | completed running decoded completes =>
    cases decoded
    have hin := completes.within
    exact ⟨congrArg (· + 1) hin.opc, hin.faultOp, hin.faultOpc, hin.cfg, hin.pending, completes.keeps_bus,
      completes.keeps_latches, completes.keeps_mem, completes.keeps_sdp, completes.keeps_busy⟩

theorem State.Completes.busInv (h : s.Completes i r u) (hb : s.BusInv) : u.BusInv := by
  by_cases hw : i = .cfgWrite
  · subst hw; cases h; exact .inl ⟨rfl, rfl, rfl, rfl, rfl, rfl⟩
  by_cases hr : i = .cfgRead
  · subst hr; cases h; exact .inr (.inl ⟨rfl, rfl, rfl, rfl, rfl, rfl⟩)
  obtain ⟨hmode, hddir, hwe, hre, hlem, hlel⟩ := h.keeps_bus hw hr
  simpa only [State.BusInv, State.WriteReady, State.ReadReady, State.Unconfigured, State.LinesIdle, State.LinesUndriven,
    hmode, hddir, hwe, hre, hlem, hlel] using hb

theorem State.Completes.memInv (h : s.Completes i r u) (hw : s.cfg.wellFormed = true) (hm : s.MemInv) : u.MemInv := by
  refine ⟨h.within.wf hm.1, ?_⟩
  rw [h.within.cfg]
  cases h with
  | write ready cell => exact memAfterWrite_below _ (devaddr_lt hw cell) hm.2
  | erase ready => exact Memory.below_fill _ _
  | cfgWrite | cfgRead | read | unlock | lock | delayMs => exact hm.2

theorem State.Completes.busyInv (h : s.Completes i r u) (hbusy : s.BusyInv) : u.BusyInv := by
  intro hs
  rw [h.within.cfg] at hs
  have := hbusy hs
  cases h with
  | cfgWrite | cfgRead | read => exact this
  | write ready cell => simp [State.written, hs, this]
  | unlock | lock | erase => rfl
  | delayMs n => simp [sleepMs, this]

/-- Every answer to a word keeps the machine's invariant. -/
theorem State.Answers.inv {o : Option Instr} {t : State} (h : s.Answers o t) (hs : s.Inv) : t.Inv := by
  obtain ⟨hw, hb, hm, hbusy, hcount, hopc, hcontract⟩ := hs
  cases h with
  | refused halted => exact ⟨hw, hb, hm, hbusy, fun hf => absurd hf halted, hopc, hcontract⟩
  | faulted running code => exact ⟨hw, hb, hm, hbusy, fun hf => absurd hf code.1, fun _ => rfl, code.2⟩
  | @completed _ r u running decoded completes =>
    have hin := completes.within
    have hf := hin.fault.trans running
    have hcount' : (complete r u).opc = (complete r u).responses.length := by
      simp [hin.opc, hin.responses, hcount running]
    exact ⟨hin.cfg ▸ hw, completes.busInv hb, completes.memInv hw hm, completes.busyInv hbusy, fun _ => hcount',
      fun h => absurd hf h, fun h => absurd (hf.symm.trans h) nofun⟩

/-- A controller reset keeps the machine's invariant: nothing is driven, nothing is recorded, the device is left alone. -/
theorem controllerReset_inv (hs : s.Inv) : (controllerReset s).Inv := by
  obtain ⟨hw, -, hm, hbusy, -⟩ := hs
  exact ⟨hw, .inr (.inr ⟨rfl, rfl, rfl, rfl, rfl, rfl⟩), hm, hbusy, fun _ => rfl, fun _ => rfl, nofun⟩

/-- Settles O41: a step answers a word or resets the controller. -/
theorem everyStepKeepsTheInvariant : Obligations.EveryStepKeepsTheInvariant := by
  intro s t hs h
  have hkeep (rest : List HostInput) : ({ s with pending := rest } : State).Inv := hs
  rcases step_next h with ⟨w, rest, _, hword⟩ | ⟨rest, _, rfl⟩
  · obtain ⟨hw, hb, -⟩ := hkeep rest
    exact (issueWord_answers hb hw hword).inv (hkeep rest)
  · exact controllerReset_inv (hkeep rest)

/-- Settles O42, whatever the free values: the invariant says nothing of `DOUT` or of the level of an undriven line. -/
theorem powerOnMeetsTheInvariant : Obligations.PowerOnMeetsTheInvariant :=
  ⟨by decide, .inr (.inr ⟨rfl, rfl, rfl, rfl, rfl, rfl⟩), ⟨rfl, rfl⟩, fun _ => rfl, fun _ => rfl, fun _ => rfl, by decide⟩

/-- Settles O18. -/
theorem powerOnState : Obligations.PowerOnState :=
  ⟨rfl, rfl, rfl, rfl, rfl, rfl, ⟨rfl, rfl, rfl, rfl⟩, rfl, rfl, Memory.read_nil, rfl, rfl⟩

/-- Settles O19. -/
theorem controllerResetRestoresTheBlock : Obligations.ControllerResetRestoresTheBlock := by
  intro s rest hp
  obtain ⟨hcfg, hpending, hlatM, hlatL, hmem, hsdp, hbusy⟩ := controllerReset_keeps { s with pending := rest }
  exact ⟨_, step_of_pending_eq_cons hp, rfl, rfl, rfl, rfl, rfl, rfl, ⟨rfl, rfl, rfl, rfl⟩, hlatM, hlatL, hmem, hsdp, hbusy,
    hcfg, hpending, rfl, rfl⟩

end Sys2Proof.Machine
end

section
/-! PROOF. The events of every operation, replayed on the pins: never in contention, and ending at the pins of the next state
(10 R37). -/

namespace Sys2Proof.Machine

/-- The trace `t` leads the pins from `p` to `q` without contention. -/
def PinView.Leads (p : PinView) (t : List TraceItem) (q : PinView) : Prop :=
  p.contentionFree t = true ∧ p.replay t = q

theorem PinView.Leads.refl (p : PinView) : p.Leads [] p := ⟨rfl, rfl⟩

theorem PinView.Leads.append {p q v : PinView} {t t' : List TraceItem} (h : p.Leads t q) (h' : q.Leads t' v) :
    p.Leads (t ++ t') v := by
  induction t generalizing p with
  | nil => obtain ⟨-, rfl⟩ := h; exact h'
  | cons x t ih =>
    obtain ⟨hfree, hend⟩ := h
    simp only [PinView.contentionFree, Bool.and_eq_true] at hfree
    obtain ⟨hfree', hend'⟩ := ih ⟨hfree.2, hend⟩
    refine ⟨?_, hend'⟩
    simp only [List.cons_append, PinView.contentionFree, hfree.1, hfree', Bool.and_self]

/-- The pins of a bus with idle control lines whose data port has direction `d`. -/
def PinView.idle (d : Dir) : PinView := ⟨⟨.output, .deasserted⟩, ⟨.output, .deasserted⟩, d⟩

theorem pinView_of_linesIdle {s : State} (h : s.LinesIdle) : s.pinView = .idle s.ddir := by
  obtain ⟨hw, hr, -, -⟩ := h
  rw [State.pinView, PinView.idle, hw, hr]

/-- A deasserted line is not active, driven or not. -/
@[simp] theorem deasserted_active (d : Dir) : ControlLine.active ⟨d, .deasserted⟩ = false := by cases d <;> rfl

theorem re_inactive_of_busInv {s : State} (h : s.BusInv) : s.re.active = false := by
  rcases h with ⟨-, -, -, hr, -, -⟩ | ⟨-, -, -, hr, -, -⟩ | ⟨-, -, -, hr, -, -⟩
  · rw [hr]; rfl
  · rw [hr]; rfl
  · simp [ControlLine.active, hr]

/-- A mode switch, whatever the pins were, as long as `RE` is not active (41 R130, R131): each line is deasserted before it is
driven. -/
theorem modeSwitchTrace_leads {p : PinView} (hr : p.re.active = false) (d : Dir) :
    p.Leads (modeSwitchTrace d) (.idle d) := by
  refine ⟨?_, rfl⟩
  simp [modeSwitchTrace, PinView.contentionFree, PinView.after, PinView.contention, hr]

/-- A data write touches neither `RE` nor the data port's direction (40 R115). -/
theorem writeTrace_leads (a : Addr) (da : Nat) (d : Byte) :
    (PinView.idle .output).Leads (writeTrace a da d) (.idle .output) := ⟨rfl, rfl⟩

theorem commandTrace_leads (a : Addr) (d : Byte) :
    (PinView.idle .output).Leads (commandTrace a d) (.idle .output) := ⟨rfl, rfl⟩

/-- A read releases the data port before it asserts `RE` (40 R116). -/
theorem readTrace_leads (a : Addr) (da n : Nat) (v : Byte) :
    (PinView.idle .input).Leads (readTrace a da n v) (.idle .input) := ⟨rfl, rfl⟩

theorem sequenceTrace_leads (c : CommandName) (l : CommandList) (n : Nat) :
    (PinView.idle .output).Leads (sequenceTrace c l n) (.idle .output) := by
  have hpairs : (PinView.idle .output).Leads (l.map fun p => commandTrace p.1 p.2).flatten (.idle .output) := by
    induction l with
    | nil => exact .refl _
    | cons p l ih => exact (commandTrace_leads p.1 p.2).append ih
  exact hpairs.append ⟨rfl, rfl⟩

theorem commanded_leads (c : CommandName) {s : State} (hr : s.WriteReady) :
    ∃ new, (s.commanded c).trace = s.trace ++ new ∧ s.pinView.Leads new (s.commanded c).pinView := by
  obtain ⟨-, hd, hi⟩ := hr
  have hpins : (s.commanded c).pinView = s.pinView := by cases c <;> rfl
  refine ⟨sequenceTrace c (sequenceOf s.cfg c) (settleOf s.cfg c), by cases c <;> rfl, ?_⟩
  rw [hpins, pinView_of_linesIdle hi, hd]
  exact sequenceTrace_leads _ _ _

/-- The events a completed operation adds to the trace lead the pins to those of its last state. -/
theorem State.Completes.leads {s u : State} {i : Instr} {r : Response} (h : s.Completes i r u) (hb : s.BusInv) :
    ∃ new, u.trace = s.trace ++ new ∧ s.pinView.Leads new u.pinView := by
  cases h with
  | cfgWrite => exact ⟨_, rfl, modeSwitchTrace_leads (re_inactive_of_busInv hb) .output⟩
  | cfgRead => exact ⟨_, rfl, modeSwitchTrace_leads (re_inactive_of_busInv hb) .input⟩
  | @write a d da ready cell =>
    obtain ⟨-, hd, hi⟩ := ready
    have hpins : (s.written a da d).pinView = s.pinView := rfl
    refine ⟨writeTrace a da d, rfl, ?_⟩
    rw [hpins, pinView_of_linesIdle hi, hd]
    exact writeTrace_leads a da d
  | @read a da ready cell =>
    obtain ⟨-, hd, hi⟩ := ready
    have hpins : (s.sampled a da).pinView = .idle .input := pinView_of_linesIdle hi
    refine ⟨readTrace a da s.cfg.readSettleNops (memReadByte da s), rfl, ?_⟩
    rw [hpins, pinView_of_linesIdle hi, hd]
    exact readTrace_leads _ _ _ _
  | unlock ready | lock ready | erase ready => exact commanded_leads _ ready
  | delayMs n =>
    refine ⟨_, rfl, ?_, rfl⟩
    simp [PinView.contentionFree, PinView.after, PinView.contention, State.pinView, re_inactive_of_busInv hb]

/-- Settles O48: an operation that is refused or faults adds no event, and one that completes does so by
`State.Completes.leads`. -/
theorem pinsAreNeverInContention : Obligations.PinsAreNeverInContention := by
  intro s t i hb hw h
  cases exec_answers hb hw h with
  | refused halted => exact ⟨[], by simp, PinView.Leads.refl s.pinView⟩
  | faulted running code => exact ⟨[], by simp, PinView.Leads.refl s.pinView⟩
  | completed running decoded completes => exact completes.leads hb

end Sys2Proof.Machine
end

section
/-! PROOF. The device address of an operation's address (20 R51), and the busy time of a data write (20 R62): the value of
`DEV.BUSY` after each completed operation, said once. -/

namespace Sys2Proof.Machine

section DeviceAddress

variable {c : Config} {a : Addr}

/-- An address below `DEV_SIZE` is the device's own. -/
theorem devaddr_of_lt (h : a.toNat < c.devSize) : devaddr c a = some a.toNat :=
  if_neg (by simpa [outOfRange] using h)

/-- Under `Alias` the device does not see the address bits above its size. -/
theorem devaddr_of_aliased (h : c.devSize ≤ a.toNat) (hp : c.oorPolicy = .aliased) :
    devaddr c a = some (a.toNat % c.devSize) := by
  simp [devaddr, outOfRange, h, hp]

theorem devaddr_of_fault (h : c.devSize ≤ a.toNat) (hp : c.oorPolicy = .fault) : devaddr c a = none := by
  simp [devaddr, outOfRange, h, hp]

theorem devaddr_mod {da : Nat} (h : devaddr c a = some da) : da % c.devSize = a.toNat % c.devSize := by
  rcases Nat.lt_or_ge a.toNat c.devSize with ha | ha
  · cases (devaddr_of_lt ha).symm.trans h
    rfl
  · cases hp : c.oorPolicy with
    | fault => cases (devaddr_of_fault ha hp).symm.trans h
    | aliased =>
      cases (devaddr_of_aliased ha hp).symm.trans h
      exact Nat.mod_mod _ _

end DeviceAddress

/-- Settles O24, from the equations of `devaddr` below and above `DEV_SIZE`. -/
theorem deviceAddressIsInRange : Obligations.DeviceAddressIsInRange :=
  fun _ _ hw => ⟨devaddr_of_lt, devaddr_of_aliased, fun _ h => ⟨devaddr_lt hw h, devaddr_mod h⟩⟩

/-- `DEV.BUSY` after operation `i` has completed from `s`, in strict mode and without it (20 R57, R59, R62; 42 R158). -/
def State.busyAfter (s : State) : Instr → Bool
  | .cfgWrite => s.busy
  | .cfgRead => s.busy
  | .write _ _ => s.cfg.strictWriteCycle || s.busy
  | .read _ => s.busy
  | .unlock => false
  | .lock => false
  | .erase => false
  | .delayMs n => if s.cfg.strictWriteCycle ∧ s.cfg.tWcMs ≤ n.toNat then false else s.busy

theorem State.Completes.busy_eq {s u : State} {i : Instr} {r : Response} (h : s.Completes i r u) :
    u.busy = s.busyAfter i := by
  cases h with
  | cfgWrite | cfgRead | write | read | unlock | lock | erase | delayMs => rfl

/-- Only a command and, in strict mode, a long enough `DELAY_MS` end the device's busy time. -/
theorem State.busyAfter_eq_false {s : State} {i : Instr} (hs : s.busy = true) (h : s.busyAfter i = false) :
    i = .unlock ∨ i = .lock ∨ i = .erase ∨
      ∃ n, i = .delayMs n ∧ s.cfg.strictWriteCycle = true ∧ s.cfg.tWcMs ≤ n.toNat := by
  cases i with
  | cfgWrite | cfgRead | write | read => simp [State.busyAfter, hs] at h
  | unlock | lock | erase => simp
  | delayMs n => simpa [State.busyAfter, hs] using h

/-- Settles O35: without strict mode by the invariant of `DEV.BUSY`, with it by the value `busyAfter` gives. -/
theorem busyTimeBeginsAndEnds : Obligations.BusyTimeBeginsAndEnds := by
  intro s t i hb hw hs h ht
  cases exec_answers hb hw h with
  | refused halted => exact absurd hs halted
  | faulted running code => exact absurd ht code.1
  | @completed _ r u running decoded completes =>
    cases decoded
    refine ⟨fun hstrict hbusy => completes.busyInv (fun _ => hbusy) (completes.within.cfg ▸ hstrict), fun hstrict => ?_⟩
    have hbusy : (complete r u).busy = s.busyAfter i := completes.busy_eq
    rw [hbusy]
    cases i with
    | cfgWrite | cfgRead | read | unlock | lock | erase => rfl
    | write | delayMs => simp [State.busyAfter, hstrict]

/-- Settles O52: a refusal, a fault and a controller reset keep `DEV.BUSY`, and an operation that completes ends it only as
`State.busyAfter_eq_false` says. -/
theorem busyEndsOnlyByDelayOrCommand : Obligations.BusyEndsOnlyByDelayOrCommand := by
  intro s t hb hw h hs ht
  rcases step_next h with ⟨w, rest, hp, hword⟩ | ⟨rest, _, rfl⟩
  · cases issueWord_answers (s := { s with pending := rest }) hb hw hword with
    | refused halted => exact absurd (hs.symm.trans ht) nofun
    | faulted running code => exact absurd (hs.symm.trans ht) nofun
    | completed running decoded completes =>
      have hends := State.busyAfter_eq_false (s := { s with pending := rest }) hs (completes.busy_eq.symm.trans ht)
      exact ⟨running, completes.within.fault.trans running, w, rest, _, hp, decoded, hends⟩
  · exact absurd (hs.symm.trans ht) nofun

end Sys2Proof.Machine
end

section
/-! PROOF. A word is its head, its `IMM16` and its `DATA` (30 R81); the decoder is a test on these fields, and it finds exactly
the operation whose encoding the word is. -/

namespace Sys2Proof

/-- The three fields the decoder reads are the whole word. -/
theorem word_eq_iff_fields (w v : Word) :
    w = v ↔ headField w = headField v ∧ imm16Field w = imm16Field v ∧ dataField w = dataField v := by
  simp only [← BitVec.toNat_inj, headField_toNat, imm16Field_toNat, dataField_toNat]
  omega

/-- `OPC` and `RSV` are the two halves of the head. -/
theorem headField_eq_append_iff (w : Word) (opc rsv : BitVec 4) :
    headField w = opc ++ rsv ↔ opcField w = opc ∧ rsvField w = rsv := by
  have hr := rsv.isLt
  simp only [← BitVec.toNat_inj, headField_toNat, opcField_toNat, rsvField_toNat, BitVec.toNat_append]
  rw [← Nat.shiftLeft_add_eq_or_of_lt hr, Nat.shiftLeft_eq]
  omega

theorem imm16Field_dataField_eq_zero_iff (w : Word) :
    imm16Field w = 0#16 ∧ dataField w = 0#8 ↔ w.toNat % 2 ^ 24 = 0 := by
  simp only [← BitVec.toNat_inj, imm16Field_toNat, dataField_toNat, BitVec.toNat_ofNat]
  omega

/-- The first eight bits of an operation's word: its operation code over a zero `RSV` (30 R81). -/
def headOf : Instr → BitVec 8
  | .cfgWrite => 0x10#8
  | .cfgRead => 0x20#8
  | .write _ _ => 0x30#8
  | .read _ => 0x40#8
  | .unlock => 0x50#8
  | .lock => 0x60#8
  | .erase => 0x70#8
  | .delayMs _ => 0x80#8

theorem headOf_eq_append (i : Instr) : headOf i = opcodeOf i ++ 0#4 := by
  cases i <;> simp [headOf, opcodeOf]

@[simp] theorem opcField_encode (i : Instr) : opcField (encode i) = opcodeOf i :=
  have ⟨hopc, _, _, _⟩ := packWord_fields _ _ _
  hopc

@[simp] theorem rsvField_encode (i : Instr) : rsvField (encode i) = 0#4 :=
  have ⟨_, hrsv, _, _⟩ := packWord_fields _ _ _
  hrsv

@[simp] theorem imm16Field_encode (i : Instr) : imm16Field (encode i) = imm16Of i :=
  have ⟨_, _, himm, _⟩ := packWord_fields _ _ _
  himm

@[simp] theorem dataField_encode (i : Instr) : dataField (encode i) = dataOf i :=
  have ⟨_, _, _, hdata⟩ := packWord_fields _ _ _
  hdata

@[simp] theorem headField_encode (i : Instr) : headField (encode i) = headOf i := by
  rw [headOf_eq_append, headField_eq_append_iff]
  exact ⟨opcField_encode i, rsvField_encode i⟩

theorem encode_eq_iff_fields (i : Instr) (w : Word) :
    encode i = w ↔ headField w = headOf i ∧ imm16Field w = imm16Of i ∧ dataField w = dataOf i := by
  rw [eq_comm, word_eq_iff_fields, headField_encode, imm16Field_encode, dataField_encode]

/-- The five tests of 30 R85 on a whole word are tests against the encodings of the operations without operands. -/
theorem decode_eq_ite_encode (w : Word) : decode w =
    if encode .cfgWrite = w then some .cfgWrite
    else if encode .cfgRead = w then some .cfgRead
    else if headField w = 0x30#8 then some (.write (imm16Field w) (dataField w))
    else if headField w = 0x40#8 ∧ dataField w = 0x00#8 then some (.read (imm16Field w))
    else if encode .unlock = w then some .unlock
    else if encode .lock = w then some .lock
    else if encode .erase = w then some .erase
    else if headField w = 0x80#8 ∧ dataField w = 0x00#8 then some (.delayMs (imm16Field w))
    else none := by
  simp only [eq_comm (b := w)]
  rfl

/-- An operation's word passes the operation's own test of the decoder and, by its head, no test before it. -/
theorem decode_encode (i : Instr) : decode (encode i) = some i := by
  rw [decode_eq_ite_encode]
  cases i <;> simp [encode_eq_iff_fields, headOf, imm16Of, dataOf]

/-- Every test of the decoder fixes the fields that the operation it answers does not keep as operands. -/
theorem encode_of_decode {w : Word} {i : Instr} (h : decode w = some i) : encode i = w := by
  rw [decode_eq_ite_encode] at h
  split_ifs at h with hcw hcr hw hr hu hl he hd <;> cases h
  · exact hcw
  · exact hcr
  · exact (encode_eq_iff_fields _ w).2 ⟨hw, rfl, rfl⟩
  · exact (encode_eq_iff_fields _ w).2 ⟨hr.1, rfl, hr.2⟩
  · exact hu
  · exact hl
  · exact he
  · exact (encode_eq_iff_fields _ w).2 ⟨hd.1, rfl, hd.2⟩

/-- Settles O2, by `decode_encode`. -/
theorem decodeOfEncodeIsTheOperation : Obligations.DecodeOfEncodeIsTheOperation := decode_encode

/-- Settles O3, by `encode_of_decode`. -/
theorem encodeOfDecodeIsTheWord : Obligations.EncodeOfDecodeIsTheWord := fun _ _ => encode_of_decode

theorem decode_eq_some_iff_encode_eq {w : Word} {i : Instr} : decode w = some i ↔ encode i = w :=
  ⟨encode_of_decode, fun h => h ▸ decode_encode i⟩

theorem decode_eq_some_iff_fields {w : Word} {i : Instr} :
    decode w = some i ↔ headField w = headOf i ∧ imm16Field w = imm16Of i ∧ dataField w = dataOf i :=
  decode_eq_some_iff_encode_eq.trans (encode_eq_iff_fields i w)

theorem decode_ne_none_iff {w : Word} : decode w ≠ none ↔ ∃ i, encode i = w := by
  simp only [Option.ne_none_iff_exists', decode_eq_some_iff_encode_eq]

theorem encode_injective : Function.Injective encode := fun i j h =>
  Option.some_injective _ (by rw [← decode_encode i, h, decode_encode])

theorem imm16Of_toNat_of_decode {w : Word} {i : Instr} (h : decode w = some i) :
    (imm16Of i).toNat = w.toNat / 2 ^ 8 % 2 ^ 16 := by
  rw [← imm16Field_toNat, ← encode_of_decode h, imm16Field_encode]

theorem dataOf_toNat_of_decode {w : Word} {i : Instr} (h : decode w = some i) : (dataOf i).toNat = w.toNat % 2 ^ 8 := by
  rw [← dataField_toNat, ← encode_of_decode h, dataField_encode]

/-- Settles O6: the address and the count are the operation's `IMM16` field, the data byte its `DATA` field. -/
theorem operandsAreTheFieldsOfTheWord : Obligations.OperandsAreTheFieldsOfTheWord := fun _ =>
  ⟨fun _ _ h => ⟨imm16Of_toNat_of_decode h, dataOf_toNat_of_decode h⟩, fun _ h => imm16Of_toNat_of_decode h,
    fun _ h => imm16Of_toNat_of_decode h⟩

/-- Settles O1: the words of the operations are closed computations, and decoding them back is `decode_encode`. -/
theorem encodingExamplesDecodeAsListed : Obligations.EncodingExamplesDecodeAsListed := by
  have both {i : Instr} {w : Word} (h : encode i = w) : encode i = w ∧ decode w = some i :=
    ⟨h, decode_eq_some_iff_encode_eq.2 h⟩
  exact ⟨both rfl, both rfl, both rfl, both rfl, both rfl, both rfl, both rfl, both rfl, both rfl, both rfl, both rfl,
    by decide⟩

end Sys2Proof
end

section
/-! PROOF. The rows of 30 R83: a mask and a match are tests on the fields of the word. -/

namespace Sys2Proof.Machine

/-- A masked word is compared field by field. -/
theorem and_eq_iff_fields (w mask v : Word) :
    w &&& mask = v ↔ headField w &&& headField mask = headField v ∧ imm16Field w &&& imm16Field mask = imm16Field v ∧
      dataField w &&& dataField mask = dataField v := by
  simp only [word_eq_iff_fields (w &&& mask) v, headField, imm16Field, dataField, BitVec.extractLsb'_and]

/-- The mask of format AD keeps the head. -/
theorem and_headMask_eq_iff {w v : Word} (himm : imm16Field v = 0#16) (hdata : dataField v = 0#8) :
    w &&& 0xFF000000#32 = v ↔ headField w = headField v := by
  have mhead : headField 0xFF000000#32 = BitVec.allOnes 8 := rfl
  have mimm : imm16Field 0xFF000000#32 = 0#16 := rfl
  have mdata : dataField 0xFF000000#32 = 0#8 := rfl
  simp only [and_eq_iff_fields, mhead, mimm, mdata, himm, hdata, BitVec.and_allOnes, BitVec.and_zero, and_true]

/-- The mask of formats A and T keeps the head and the data byte. -/
theorem and_headDataMask_eq_iff {w v : Word} (himm : imm16Field v = 0#16) :
    w &&& 0xFF0000FF#32 = v ↔ headField w = headField v ∧ dataField w = dataField v := by
  have mhead : headField 0xFF0000FF#32 = BitVec.allOnes 8 := rfl
  have mimm : imm16Field 0xFF0000FF#32 = 0#16 := rfl
  have mdata : dataField 0xFF0000FF#32 = BitVec.allOnes 8 := rfl
  simp only [and_eq_iff_fields, mhead, mimm, mdata, himm, BitVec.and_allOnes, BitVec.and_zero, true_and]

/-- The mask of format N keeps the whole word. -/
theorem decode_eq_some_iff_and_wholeMask {w : Word} (i : Instr) : decode w = some i ↔ w &&& 0xFFFFFFFF#32 = encode i := by
  have hmask : w &&& 0xFFFFFFFF#32 = w := BitVec.and_allOnes
  rw [decode_eq_some_iff_encode_eq, hmask, eq_comm]

theorem exists_decode_eq_write_iff {w : Word} : (∃ a d, decode w = some (.write a d)) ↔ headField w = 0x30#8 := by
  simp only [decode_eq_some_iff_fields]
  exact ⟨fun ⟨_, _, hhead, _⟩ => hhead, fun hhead => ⟨_, _, hhead, rfl, rfl⟩⟩

theorem exists_decode_eq_read_iff {w : Word} :
    (∃ a, decode w = some (.read a)) ↔ headField w = 0x40#8 ∧ dataField w = 0#8 := by
  simp only [decode_eq_some_iff_fields]
  exact ⟨fun ⟨_, hhead, _, hdata⟩ => ⟨hhead, hdata⟩, fun ⟨hhead, hdata⟩ => ⟨_, hhead, rfl, hdata⟩⟩

theorem exists_decode_eq_delayMs_iff {w : Word} :
    (∃ n, decode w = some (.delayMs n)) ↔ headField w = 0x80#8 ∧ dataField w = 0#8 := by
  simp only [decode_eq_some_iff_fields]
  exact ⟨fun ⟨_, hhead, _, hdata⟩ => ⟨hhead, hdata⟩, fun ⟨hhead, hdata⟩ => ⟨_, hhead, rfl, hdata⟩⟩

/-- Every row's mask keeps the head of the word. -/
theorem headField_of_row_matches {r : Word × Word} (hr : r ∈ opcodeRows) {w : Word} (h : w &&& r.2 = r.1) :
    headField w = headField r.1 := by
  have hmasks : opcodeRows.map (fun r => headField r.2) = List.replicate 8 (BitVec.allOnes 8) := rfl
  have hmask : headField r.2 = BitVec.allOnes 8 := List.eq_of_mem_replicate (hmasks ▸ List.mem_map_of_mem hr)
  simpa only [hmask, BitVec.and_allOnes] using ((and_eq_iff_fields w r.2 r.1).1 h).1

theorem heads_of_rows_nodup : (opcodeRows.map fun r => headField r.1).Nodup := by decide

/-- The rows differ in their heads. -/
theorem row_eq_of_headField_eq {r₁ r₂ : Word × Word} (h₁ : r₁ ∈ opcodeRows) (h₂ : r₂ ∈ opcodeRows)
    (h : headField r₁.1 = headField r₂.1) : r₁ = r₂ := List.inj_on_of_nodup_map heads_of_rows_nodup h₁ h₂ h

/-- Settles O4: a row's mask keeps exactly the fields that its operation fixes, and among them the head, in which the rows
differ. -/
theorem maskAndMatchSelectTheOperation : Obligations.MaskAndMatchSelectTheOperation := by
  refine ⟨fun w => ⟨?_, ?_, ?_, ?_, ?_, ?_, ?_, ?_⟩, fun r₁ h₁ r₂ h₂ hne w ⟨hw₁, hw₂⟩ => ?_⟩
  · exact decode_eq_some_iff_and_wholeMask .cfgWrite
  · exact decode_eq_some_iff_and_wholeMask .cfgRead
  · exact exists_decode_eq_write_iff.trans (and_headMask_eq_iff (v := 0x30000000#32) rfl rfl).symm
  · exact exists_decode_eq_read_iff.trans (and_headDataMask_eq_iff (v := 0x40000000#32) rfl).symm
  · exact decode_eq_some_iff_and_wholeMask .unlock
  · exact decode_eq_some_iff_and_wholeMask .lock
  · exact decode_eq_some_iff_and_wholeMask .erase
  · exact exists_decode_eq_delayMs_iff.trans (and_headDataMask_eq_iff (v := 0x80000000#32) rfl).symm
  · have hhead : headField r₁.1 = headField r₂.1 :=
      (headField_of_row_matches h₁ hw₁).symm.trans (headField_of_row_matches h₂ hw₂)
    exact hne (row_eq_of_headField_eq h₁ h₂ hhead)

end Sys2Proof.Machine
end

section
/-! PROOF. Which words spell an operation, by their fields (30 R86), and how many do: as many as there are operations. -/

namespace Sys2Proof

/-- The words of 30 R82's four formats, by the fields of 30 R81. -/
theorem exists_encode_eq_iff {w : Word} : (∃ i, encode i = w) ↔ rsvField w = 0#4 ∧
    ((opcField w = 0x1#4 ∨ opcField w = 0x2#4 ∨ opcField w = 0x5#4 ∨ opcField w = 0x6#4 ∨ opcField w = 0x7#4) ∧
        imm16Field w = 0#16 ∧ dataField w = 0#8 ∨
      opcField w = 0x3#4 ∨
      (opcField w = 0x4#4 ∨ opcField w = 0x8#4) ∧ dataField w = 0#8) := by
  constructor
  · rintro ⟨i, rfl⟩
    cases i <;> simp [opcodeOf, imm16Of, dataOf]
  · simp only [encode_eq_iff_fields, headOf_eq_append, headField_eq_append_iff]
    rintro ⟨hrsv, ⟨hopc, himm, hdata⟩ | hopc | ⟨hopc, hdata⟩⟩
    · rcases hopc with hopc | hopc | hopc | hopc | hopc
      · exact ⟨.cfgWrite, ⟨hopc, hrsv⟩, himm, hdata⟩
      · exact ⟨.cfgRead, ⟨hopc, hrsv⟩, himm, hdata⟩
      · exact ⟨.unlock, ⟨hopc, hrsv⟩, himm, hdata⟩
      · exact ⟨.lock, ⟨hopc, hrsv⟩, himm, hdata⟩
      · exact ⟨.erase, ⟨hopc, hrsv⟩, himm, hdata⟩
    · exact ⟨.write _ _, ⟨hopc, hrsv⟩, rfl, rfl⟩
    · rcases hopc with hopc | hopc
      · exact ⟨.read _, ⟨hopc, hrsv⟩, rfl, hdata⟩
      · exact ⟨.delayMs _, ⟨hopc, hrsv⟩, rfl, hdata⟩

/-- The operations, in the order in which 30 R86 counts them: two mode switches, the `WRITE`s, the `READ`s, three commands, the
`DELAY_MS`s. -/
def instrEquiv : Instr ≃ Bool ⊕ (Addr × Byte) ⊕ Addr ⊕ Fin 3 ⊕ BitVec 16 where
  toFun
    | .cfgWrite => .inl false
    | .cfgRead => .inl true
    | .write a d => .inr (.inl (a, d))
    | .read a => .inr (.inr (.inl a))
    | .unlock => .inr (.inr (.inr (.inl 0)))
    | .lock => .inr (.inr (.inr (.inl 1)))
    | .erase => .inr (.inr (.inr (.inl 2)))
    | .delayMs n => .inr (.inr (.inr (.inr n)))
  invFun
    | .inl false => .cfgWrite
    | .inl true => .cfgRead
    | .inr (.inl (a, d)) => .write a d
    | .inr (.inr (.inl a)) => .read a
    | .inr (.inr (.inr (.inl 0))) => .unlock
    | .inr (.inr (.inr (.inl 1))) => .lock
    | .inr (.inr (.inr (.inl 2))) => .erase
    | .inr (.inr (.inr (.inr n))) => .delayMs n
  left_inv i := by cases i <;> rfl
  right_inv
    | .inl false | .inl true => rfl
    | .inr (.inl (_, _)) => rfl
    | .inr (.inr (.inl _)) => rfl
    | .inr (.inr (.inr (.inl 0))) | .inr (.inr (.inr (.inl 1))) | .inr (.inr (.inr (.inl 2))) => rfl
    | .inr (.inr (.inr (.inr _))) => rfl

theorem natCard_bitVec (n : ℕ) : Nat.card (BitVec n) = 2 ^ n := by
  rw [Nat.card_congr BitVec.equivFin.toEquiv, Nat.card_fin]

theorem natCard_instr : Nat.card Instr = 2 + 2 ^ 24 + 2 ^ 16 + 3 + 2 ^ 16 := by
  simp only [Nat.card_congr instrEquiv, Nat.card_sum, Nat.card_prod, natCard_bitVec, Nat.card_fin,
    Nat.card_eq_fintype_card (α := Bool), Fintype.card_bool]
  norm_num

theorem ncard_decode_ne_none : {w : Word | decode w ≠ none}.ncard = Nat.card Instr := by
  have hrange : {w : Word | decode w ≠ none} = Set.range encode := Set.ext fun _ => decode_ne_none_iff
  rw [hrange, Set.ncard_range_of_injective encode_injective]

/-- Settles O5: `Illegal` is what no operation's fields allow, and `encode` counts the other words. -/
theorem illegalWordsAreExactlyTheReservedOnes : Obligations.IllegalWordsAreExactlyTheReservedOnes := by
  refine ⟨fun w => ?_, ncard_decode_ne_none.trans natCard_instr⟩
  rw [← not_iff_not, ← ne_eq, decode_ne_none_iff, exists_encode_eq_iff, imm16Field_dataField_eq_zero_iff]
  simp only [ne_eq, ← BitVec.toNat_inj, BitVec.toNat_ofNat]
  omega

end Sys2Proof
end

section
/-! PROOF. The assembler's ranges (30 R88) and expansions (30 R89). -/

namespace Sys2Proof.Machine

@[simp] theorem asmWord16Ok_toNat (a : BitVec 16) : asmWord16Ok a.toNat = true := decide_eq_true a.isLt

@[simp] theorem asmByteOk_toNat (d : Byte) : asmByteOk d.toNat = true := decide_eq_true d.isLt

theorem asmWord16Ok_eq_false {n : Nat} (h : 65535 < n) : asmWord16Ok n = false := decide_eq_false (by omega)

theorem asmByteOk_eq_false {n : Nat} (h : 255 < n) : asmByteOk n = false := decide_eq_false (by omega)

theorem expandLine_of_not_wellFormed (c : Config) {l : AsmLine} (h : l.wellFormed = false) : expandLine c l = none := by
  simp [expandLine, h]

/-- Settles O50: each line is well-formed, and its operands are the numbers given. -/
theorem pseudoInstructionsExpand : Obligations.PseudoInstructionsExpand := by
  intro c a d
  refine ⟨?_, ?_, ?_, fun h => ?_⟩
  · simp [expandLine, AsmLine.wellFormed]
  · simp [expandLine, AsmLine.wellFormed]
  · simp [expandLine, AsmLine.wellFormed]
  · have hn : asmWord16Ok c.tWcMs = true := decide_eq_true (by omega)
    simp [expandLine, AsmLine.wellFormed, hn]

/-- Settles O51: a number out of range makes its line ill-formed, and an ill-formed line has no expansion. -/
theorem outOfRangeNumbersAreAssemblyErrors : Obligations.OutOfRangeNumbersAreAssemblyErrors := by
  intro c a d
  refine ⟨fun h => ?_, fun h => ?_⟩
  · have hpair : (asmWord16Ok a && asmByteOk d) = false :=
      Bool.and_eq_false_iff.2 (h.imp asmWord16Ok_eq_false asmByteOk_eq_false)
    exact ⟨expandLine_of_not_wellFormed c hpair, expandLine_of_not_wellFormed c hpair, expandLine_of_not_wellFormed c hpair⟩
  · have hword : asmWord16Ok a = false := asmWord16Ok_eq_false h
    exact ⟨expandLine_of_not_wellFormed c hword, expandLine_of_not_wellFormed c hword, expandLine_of_not_wellFormed c hword⟩

end Sys2Proof.Machine
end

section
/-! PROOF. The latches: a strobe pulse is its two events and the capture at its end (40 R110, R111), and after a completed cycle
the latched address is that of the last cycle (40 R113, R114; 10 R32). -/

namespace Sys2Proof.Machine

/-- On idle lines the pulse puts its line back, so that the capture is all it changes beside the trace. -/
theorem strobe_done (x : LatchId) {s : State} (h : s.LinesIdle) :
    strobe x s =
      .done () (captureLatch x ((s.emit (.asserts (strobeLine x))).emit (.deasserts (strobeLine x)))) := by
  obtain ⟨cfg, pending, opc, mode, fault, faultOp, faultOpc, ddir, dout, we, re, lem, lel, latM, latL, mem, sdp, busy,
    responses, trace, draws⟩ := s
  obtain ⟨rfl, rfl, rfl, rfl⟩ := h
  cases x <;>
    simp [strobe, strobeLine, pEnable, pDisable, checkContention, State.contention, State.setLine, State.line, State.emit]

theorem captureLatch_of_output (x : LatchId) {s : State} (h : s.ddir = .output) :
    captureLatch x s = (s.setLatch x (some s.dout)).react (.latch x s.dout) := by
  simp only [captureLatch, h]

theorem captureLatch_of_input (x : LatchId) {s : State} (h : s.ddir = .input) : captureLatch x s = s.setLatch x none := by
  simp only [captureLatch, h]

/-- Settles O27: the capture takes `DOUT` from a driven data port and nothing known from a released one. -/
theorem strobeCapturesTheDrivenByte : Obligations.StrobeCapturesTheDrivenByte := by
  intro s x hi
  refine ⟨_, strobe_done x hi, ?_⟩
  cases hd : s.ddir with
  | output => cases x <;> simp [captureLatch_of_output, hd]
  | input => cases x <;> simp [captureLatch_of_input, hd]

theorem latchedAddr_eq_some {s : State} {a : Addr} (hm : s.latM = some (addrHigh a)) (hl : s.latL = some (addrLow a)) :
    s.latchedAddr = some a := by
  simp only [State.latchedAddr, hm, hl, joinAddr_slices]

/-- Settles O26, by `latchAddr_done`. -/
theorem latchAddrLeavesTheAddress : Obligations.LatchAddrLeavesTheAddress := by
  rintro s a hd ⟨_, hre, hlem, hlel⟩
  have hr : s.re.active = false := by rw [hre, idle_active]
  exact ⟨_, latchAddr_done a hd hlem hlel hr, latchedAddr_eq_some rfl rfl, rfl, rfl, rfl, rfl⟩

theorem sequenceOf_ne_nil {c : Config} (hw : c.wellFormed = true) (n : CommandName) : sequenceOf c n ≠ [] := by
  intro hnil
  have hok := sequenceOf_ok hw n
  rw [hnil] at hok
  cases hok

/-- A command has a last pair, and leaves its address in the latches. -/
theorem commanded_latchedAddr (c : CommandName) {s : State} (hw : s.cfg.wellFormed = true) :
    (s.commanded c).latchedAddr = (sequenceOf s.cfg c).getLast?.map Prod.fst := by
  obtain ⟨p, hp⟩ : ∃ p, (sequenceOf s.cfg c).getLast? = some p :=
    ⟨_, List.getLast?_eq_some_getLast (sequenceOf_ne_nil hw c)⟩
  have hm : (s.commanded c).latM = some (addrHigh p.1) := by cases c <;> simp [State.commanded, devCommand, hp]
  have hl : (s.commanded c).latL = some (addrLow p.1) := by cases c <;> simp [State.commanded, devCommand, hp]
  rw [latchedAddr_eq_some hm hl, hp, Option.map_some]

/-- The latched address when operation `i` has completed from `s`: that of its last cycle, and as it was when it has none. -/
def State.latchedAfter (s : State) : Instr → Option Addr
  | .cfgWrite => s.latchedAddr
  | .cfgRead => s.latchedAddr
  | .write a _ => some a
  | .read a => some a
  | .unlock => s.cfg.seqUnlock.getLast?.map Prod.fst
  | .lock => s.cfg.seqLock.getLast?.map Prod.fst
  | .erase => s.cfg.seqErase.getLast?.map Prod.fst
  | .delayMs _ => s.latchedAddr

theorem State.Completes.latchedAddr_eq {s u : State} {i : Instr} {r : Response} (h : s.Completes i r u)
    (hw : s.cfg.wellFormed = true) : u.latchedAddr = s.latchedAfter i := by
  cases h with
  | cfgWrite | cfgRead | delayMs => rfl
  | write | read => exact latchedAddr_eq_some rfl rfl
  | unlock => exact commanded_latchedAddr .unlock hw
  | lock => exact commanded_latchedAddr .lock hw
  | erase => exact commanded_latchedAddr .erase hw

/-- An operation that leaves a running block without a fault has completed. -/
theorem exec_completes {s t : State} {i : Instr} (hb : s.BusInv) (hw : s.cfg.wellFormed = true) (hs : s.fault = .none)
    (ht : t.fault = .none) (h : exec i s = .next t) : ∃ r u, s.Completes i r u ∧ t = complete r u := by
  cases exec_answers hb hw h with
  | refused halted => exact absurd hs halted
  | faulted running code => exact absurd ht code.1
  | completed running decoded completes =>
    cases decoded
    exact ⟨_, _, completes, rfl⟩

/-- Settles O49, by `State.Completes.latchedAddr_eq`. -/
theorem latchedAddressIsKnownAfterACycle : Obligations.LatchedAddressIsKnownAfterACycle := by
  intro s t a d hb hw hs ht
  have hlatched {i : Instr} (h : exec i s = .next t) : t.latchedAddr = s.latchedAfter i := by
    obtain ⟨r, u, hu, rfl⟩ := exec_completes hb hw hs ht h
    exact hu.latchedAddr_eq hw
  exact ⟨hlatched, hlatched, hlatched, hlatched, hlatched⟩

end Sys2Proof.Machine
end

section
/-! PROOF. The physical side of the pins: the level of a control line (40 R102) and the bits of the data groups (40 R104, R105). -/

namespace Sys2Proof.Machine

theorem phys_of_input {s : State} {l : Line} (h : (s.line l).dir = .input) : s.phys l = none := by
  simp only [State.phys, h]

theorem phys_of_output {s : State} {l : Line} (h : (s.line l).dir = .output) :
    s.phys l = some (decide ((s.line l).lvl = .asserted ↔ polarityOf s.cfg l = .activeHigh)) := by
  simp only [State.phys, h, Option.some.injEq]
  rw [Bool.eq_iff_iff, decide_eq_true_eq, beq_iff_eq, Bool.eq_iff_iff, beq_iff_eq, beq_iff_eq]

/-- Settles O28, by the direction of the line. -/
theorem physicalLevelFollowsPolarity : Obligations.PhysicalLevelFollowsPolarity := by
  intro s l
  refine ⟨phys_of_input, fun hd => ?_⟩
  simp only [phys_of_output hd, Option.some.injEq, decide_eq_true_eq, ne_eq, reduceCtorEq, not_false_eq_true, and_true]

/-- Groups that start at bit `lo` give back the byte without its bits below `lo`: the first group's bits are those that the
groups after it lack. -/
theorem joinGroups_groupBits (v : Byte) {gs : List DataGroup} {lo : Nat} (h : groupsFrom lo gs = true) :
    joinGroups gs (gs.map fun g => groupBits g v) = v.toNat / 2 ^ lo * 2 ^ lo := by
  induction gs generalizing lo with
  | nil =>
    obtain rfl : lo = 8 := by simpa [groupsFrom] using h
    have habove : v.toNat / 2 ^ 8 = 0 := Nat.div_eq_of_lt v.isLt
    rw [habove, Nat.zero_mul]
    rfl
  | cons g gs ih =>
    simp only [groupsFrom, Bool.and_eq_true, beq_iff_eq] at h
    obtain ⟨⟨⟨rfl, -⟩, -⟩, hrest⟩ := h
    calc joinGroups (g :: gs) ((g :: gs).map fun g => groupBits g v)
      _ = v.toNat / 2 ^ g.lo % 2 ^ g.width * 2 ^ g.lo + v.toNat / 2 ^ (g.lo + g.width) * 2 ^ (g.lo + g.width) := by
        rw [← ih hrest]
        rfl
      _ = (v.toNat / 2 ^ g.lo % 2 ^ g.width + 2 ^ g.width * (v.toNat / 2 ^ g.lo / 2 ^ g.width)) * 2 ^ g.lo := by
        rw [pow_add, Nat.div_div_eq_div_mul]
        ring
      _ = v.toNat / 2 ^ g.lo * 2 ^ g.lo := by rw [Nat.mod_add_div]

/-- Settles O29: the groups of a well-formed configuration start at bit 0. -/
theorem dataGroupsRecombineTheByte : Obligations.DataGroupsRecombineTheByte := by
  intro c v hw
  simp only [Config.wellFormed, Config.dataGroupsOk, Bool.and_eq_true] at hw
  obtain ⟨-, -, hgroups⟩ := hw
  rw [joinGroups_groupBits v hgroups, pow_zero, Nat.div_one, Nat.mul_one]

end Sys2Proof.Machine
end

section
/-! PROOF. The bus driver's operations (41 R130 to R133): when their checks pass, the state they complete with, the order of
their latch captures, and the round trip of a byte. -/

namespace Sys2Proof.Machine

variable {s t : State} {a : Addr} {d : Byte} {da : Nat}

theorem exec_of_halted {i : Instr} (hs : s.fault ≠ .none) : exec i s = .next (s.respond .refused) := by
  rw [exec_eq_operation, operation_halted _ _ _ hs]

theorem exec_of_checksOf_eq_some {i : Instr} {c : FaultCode} (hs : s.fault = .none) (hc : checksOf i s = some c) :
    exec i s = .next (raiseFault c (encode i) s) := by
  rw [exec_eq_operation, operation_checked _ _ hs hc]

/-- A running block answers an operation whose checks pass and whose body is done with the completion of that body. -/
theorem exec_of_bodyOf_done {i : Instr} {r : Response} {u : State} (hs : s.fault = .none) (hc : checksOf i s = none)
    (hbody : bodyOf i s = .done r u) : exec i s = .next (complete r u) := by
  rw [exec_eq_operation, operation_passed _ _ hs hc, hbody, finish_done]

/-- An operation after which a running block shows no fault has passed its checks. -/
theorem checksOf_eq_none_of_exec {i : Instr} (hs : s.fault = .none) (ht : t.fault = .none) (h : exec i s = .next t) :
    checksOf i s = none := by
  cases hc : checksOf i s with
  | none => rfl
  | some c =>
    cases (exec_of_checksOf_eq_some hs hc).symm.trans h
    exact absurd ht (checksOf_code hc).1

/-- Settles O20: the mode switch has no checks of its own, and its body is `bodyOf_cfgWrite`. -/
theorem cfgWriteConfiguresTheBus : Obligations.CfgWriteConfiguresTheBus :=
  fun s hs => exec_of_bodyOf_done hs rfl (bodyOf_cfgWrite s)

/-- Settles O21: the mode switch has no checks of its own, and its body is `bodyOf_cfgRead`. -/
theorem cfgReadReleasesTheDataPort : Obligations.CfgReadReleasesTheDataPort :=
  fun s hs => exec_of_bodyOf_done hs rfl (bodyOf_cfgRead s)

theorem firstFault_of_forall_eq_false {l : List (Bool × FaultCode)} (h : ∀ p ∈ l, p.1 = false) : firstFault l = none := by
  cases hl : firstFault l with
  | none => rfl
  | some c => exact absurd (h _ (firstFault_eq_some hl)) nofun

/-- The range check passes where the device has a cell (41 R140). -/
theorem rangeCheck_of_cellAt (ha : s.CellAt a da) : (rangeCheck a s).1 = false := by
  by_contra hfails
  simp only [rangeCheck, outOfRange, Bool.not_eq_false, Bool.and_eq_true, decide_eq_true_eq, beq_iff_eq] at hfails
  obtain ⟨hout, hpolicy⟩ := hfails
  exact absurd ((devaddr_of_fault hout hpolicy).symm.trans ha) nofun

theorem isCommandHead_iff_spellsCommand : isCommandHead s.cfg a d = true ↔ s.SpellsCommand a d := by
  simp only [isCommandHead, Bool.or_eq_true, beq_iff_eq, or_assoc, State.SpellsCommand, eq_comm (a := some (a, d))]

theorem notGuarded_of_not_spellsCommand (hg : ¬(s.cfg.cmdPrefixGuard = true ∧ s.SpellsCommand a d)) : s.NotGuarded a d := by
  rwa [State.NotGuarded, ← Bool.not_eq_true, Bool.and_eq_true, isCommandHead_iff_spellsCommand]

theorem modeCheck_of_mode {m : Mode} (h : s.mode = m) : (modeCheck m s).1 = false := by
  simp only [modeCheck, h, bne_self_eq_false]

theorem writeChecks_eq_none (hm : s.mode = .write) (ha : s.CellAt a da) (hb : s.NotBusy) (hg : s.NotGuarded a d) :
    writeChecks a d s = none := by
  refine firstFault_of_forall_eq_false ?_
  simp only [List.forall_mem_cons]
  exact ⟨modeCheck_of_mode hm, rangeCheck_of_cellAt ha, hb, hg, nofun⟩

theorem readChecks_eq_none (hm : s.mode = .read) (ha : s.CellAt a da) (hb : s.NotBusy) : readChecks a s = none := by
  refine firstFault_of_forall_eq_false ?_
  simp only [List.forall_mem_cons]
  exact ⟨modeCheck_of_mode hm, rangeCheck_of_cellAt ha, hb, nofun⟩

theorem exec_write (hs : s.fault = .none) (hr : s.WriteReady) (ha : s.CellAt a da) (hb : s.NotBusy)
    (hg : s.NotGuarded a d) : exec (.write a d) s = .next (complete .ok (s.written a da d)) :=
  exec_of_bodyOf_done hs (writeChecks_eq_none hr.1 ha hb hg) (bodyOf_write hr ha)

theorem exec_read (hs : s.fault = .none) (hr : s.ReadReady) (ha : s.CellAt a da) (hb : s.NotBusy) :
    exec (.read a) s = .next (complete (.data (memReadByte da s)) (s.sampled a da)) :=
  exec_of_bodyOf_done hs (readChecks_eq_none hr.1 ha hb) (bodyOf_read hr ha)

theorem memAfterWrite_of_unprotected (h : s.sdp = some .isUnprotected) : memAfterWrite da d s = Memory.write da d s.mem := by
  simp only [memAfterWrite, h]

theorem memAfterWrite_of_protected (h : s.sdp = some .isProtected) : memAfterWrite da d s = s.mem := by
  simp only [memAfterWrite, h]

theorem written_mem_of_unprotected (h : s.sdp = some .isUnprotected) :
    (s.written a da d).mem = Memory.write da d s.mem := memAfterWrite_of_unprotected h

/-- Under unknown protection the device stores the byte or keeps its cells (20 R57). -/
theorem memAfterWrite_of_unknown (h : s.sdp = none) :
    memAfterWrite da d s = Memory.write da d s.mem ∨ memAfterWrite da d s = s.mem := by
  simp only [memAfterWrite, h]
  exact ite_eq_or_eq _ _ _

theorem drawsAfterWrite_of_known {p : Sdp} (h : s.sdp = some p) : drawsAfterWrite s = s.draws := by
  simp only [drawsAfterWrite, h]

/-- Settles O22: the next state is that of `exec_write`, its cells and draw counter those of `memAfterWrite` and
`drawsAfterWrite`. -/
theorem writeCompletesByProtection : Obligations.WriteCompletesByProtection := by
  intro s a d da hs hr ha hb hg
  refine ⟨memAfterWrite da d s, drawsAfterWrite s, exec_write hs hr ha hb (notGuarded_of_not_spellsCommand hg),
    fun hp => ⟨?_, drawsAfterWrite_of_known hp⟩,
    fun hp => ⟨memAfterWrite_of_protected hp, drawsAfterWrite_of_known hp⟩,
    fun hp => ?_, fun b hne => memAfterWrite_read_other hne d s⟩
  · rw [memAfterWrite_of_unprotected hp, Memory.read_write_same]
  · rcases memAfterWrite_of_unknown (da := da) (d := d) hp with hm | hm
    · exact .inl (by rw [hm, Memory.read_write_same])
    · exact .inr (by rw [hm])

theorem memReadByte_of_known {v : Byte} (h : Memory.read da s.mem = some v) : memReadByte da s = v := by
  simp only [memReadByte, h]

theorem exec_read_of_known {v : Byte} (hs : s.fault = .none) (hr : s.ReadReady) (ha : s.CellAt a da) (hb : s.NotBusy)
    (hv : Memory.read da s.mem = some v) : exec (.read a) s = .next (complete (.data v) (s.sampled a da)) := by
  rw [exec_read hs hr ha hb, memReadByte_of_known hv]

theorem memReadState_of_known {v : Byte} (h : Memory.read da s.mem = some v) : memReadState da s = s := by
  simp only [memReadState, h]

/-- A read gives the data port back as it found it: released. -/
theorem sampled_of_input (hd : s.ddir = .input) :
    s.sampled a da = { s with
      dout := addrLow a
      latM := some (addrHigh a)
      latL := some (addrLow a)
      draws := (memReadState da s).draws
      trace := s.trace ++ readTrace a da s.cfg.readSettleNops (memReadByte da s) } := by
  rw [State.sampled, ← hd]

/-- Settles O23: the next state is that of `exec_read`, the byte that of `memReadByte`. -/
theorem readCompletesWithTheCell : Obligations.ReadCompletesWithTheCell := by
  intro s a da hs hr ha hb
  refine ⟨memReadByte da s, (memReadState da s).draws, ?_,
    fun x hx => ⟨memReadByte_of_known hx, by rw [memReadState_of_known hx]⟩⟩
  rw [exec_read hs hr ha hb, sampled_of_input hr.2.1]
  rfl

/-- A `WRITE` that leaves a running block without a fault has gone through its one write cycle. -/
theorem exec_write_trace (hb : s.BusInv) (hs : s.fault = .none) (ht : t.fault = .none) (h : exec (.write a d) s = .next t) :
    ∃ da, t.trace = s.trace ++ writeTrace a da d := by
  have hc := checksOf_eq_none_of_exec hs ht h
  obtain ⟨da, ha⟩ := cellAt_of_writeChecks hc
  cases (exec_of_bodyOf_done hs hc (bodyOf_write (writeReady_of_mode hb (mode_of_writeChecks hc)) ha)).symm.trans h
  exact ⟨da, rfl⟩

/-- A `READ` that leaves a running block without a fault has gone through its one read cycle. -/
theorem exec_read_trace (hb : s.BusInv) (hs : s.fault = .none) (ht : t.fault = .none) (h : exec (.read a) s = .next t) :
    ∃ da v, t.trace = s.trace ++ readTrace a da s.cfg.readSettleNops v := by
  have hc := checksOf_eq_none_of_exec hs ht h
  obtain ⟨da, ha⟩ := cellAt_of_readChecks hc
  cases (exec_of_bodyOf_done hs hc (bodyOf_read (readReady_of_mode hb (mode_of_readChecks hc)) ha)).symm.trans h
  exact ⟨da, _, rfl⟩

/-- Settles O25: each cycle's trace is `LATCH_ADDR`'s, for `READ` inside the turn of the data port, then the enable, after which
no latch is strobed. -/
theorem latchesAreWrittenMsbFirst : Obligations.LatchesAreWrittenMsbFirst := by
  intro s t a d hb hs ht
  refine ⟨fun h => ?_, fun h => ?_⟩
  · obtain ⟨da, htrace⟩ := exec_write_trace hb hs ht h
    refine ⟨latchTrace a, [.reaction (.devAddr da), .event (.drive d), .event (.deasserts .we), .reaction (.devWrite da d)],
      ?_, rfl, rfl⟩
    rw [htrace, List.append_assoc]
    rfl
  · obtain ⟨da, v, htrace⟩ := exec_read_trace hb hs ht h
    refine ⟨[.event (.dirData .output)] ++ latchTrace a ++ [.event (.dirData .input)],
      [.event (.nop s.cfg.readSettleNops), .event (.sample v), .reaction (.devRead da v), .event (.deasserts .re)],
      ?_, rfl, rfl⟩
    rw [htrace, List.append_assoc]
    rfl

/-- Settles O38: `WRITE` stores the byte, `CFG_READ` leaves the device alone, and `READ` answers a known cell. -/
theorem writtenByteReadsBack : Obligations.WrittenByteReadsBack := by
  intro s a b hr hs hp hstrict ha hg
  have hcell : s.CellAt a a.toNat := devaddr_of_lt ha
  have hbusy (u : State) (hu : u.cfg = s.cfg) : u.NotBusy := by rw [State.NotBusy, hu, hstrict, Bool.false_and]
  have hstored : Memory.read a.toNat (s.written a a.toNat b).mem = some b := by
    rw [written_mem_of_unprotected hp, Memory.read_write_same]
  refine ⟨_, _, _, exec_write hs hr hcell (hbusy s rfl) (notGuarded_of_not_spellsCommand hg),
    exec_of_bodyOf_done hs rfl (bodyOf_cfgRead _),
    exec_read_of_known hs ⟨rfl, rfl, rfl, rfl, rfl, rfl⟩ hcell (hbusy _ rfl) hstored, ?_⟩
  simp [State.sampled, State.switched, State.written]

end Sys2Proof.Machine
end

section
/-! PROOF. No operation but `READ` looks at the device (41 R137): from states that differ only in what the device holds, its
checks and its body go the same way. -/

namespace Sys2Proof.Machine

variable {s u : State} {i : Instr} {r : Response}

/-- The state with other cells, another protection state and another draw counter; `DEV.BUSY`, which 60 R182 asks for, is left
alone. -/
def State.withDevice (m : List Host.Cell) (p : Option Sdp) (n : Nat) (s : State) : State :=
  { s with mem := m, sdp := p, draws := n }

section

variable (m : List Host.Cell) (p : Option Sdp) (n : Nat)

/-- The checks ask the device for nothing but `DEV.BUSY`. -/
theorem checksOf_withDevice (i : Instr) (s : State) : checksOf i (s.withDevice m p n) = checksOf i s := by
  cases i <;> rfl

/-- The operation completes with the same response from whatever the device holds, and in states that differ only there. -/
theorem State.Completes.withDevice (h : s.Completes i r u) (hi : ∀ a, i ≠ .read a) :
    ∃ m' p' n', (s.withDevice m p n).Completes i r (u.withDevice m' p' n') := by
  cases h with
  | cfgWrite => exact ⟨m, p, n, .cfgWrite⟩
  | cfgRead => exact ⟨m, p, n, .cfgRead⟩
  | @write a d da ready cell =>
    exact ⟨memAfterWrite da d (s.withDevice m p n), p, drawsAfterWrite (s.withDevice m p n), .write ready cell⟩
  | read => exact absurd rfl (hi _)
  | unlock ready => exact ⟨m, some .isUnprotected, n, .unlock ready⟩
  | lock ready => exact ⟨m, some .isProtected, n, .lock ready⟩
  | erase ready =>
    exact ⟨Memory.fill s.cfg.devSize 0xFF#8, sdpAfterErase (s.withDevice m p n), drawsAfterErase (s.withDevice m p n),
      .erase ready⟩
  | delayMs k => exact ⟨m, p, n, .delayMs k⟩

end

theorem State.Completes.bodyOf_eq (h : s.Completes i r u) (hw : s.cfg.wellFormed = true) : bodyOf i s = .done r u := by
  cases h with
  | cfgWrite => exact bodyOf_cfgWrite s
  | cfgRead => exact bodyOf_cfgRead s
  | write ready cell => exact bodyOf_write ready cell
  | read ready cell => exact bodyOf_read ready cell
  | unlock ready => exact issueSequence_done .unlock hw ready
  | lock ready => exact issueSequence_done .lock hw ready
  | erase ready => exact issueSequence_done .erase hw ready
  | delayMs => rfl

/-- Settles O37: a halted block refuses, and a running one makes the same checks; when they pass, the operation completes as
`State.Completes.withDevice` says. -/
theorem noBranchOnDeviceState : Obligations.NoBranchOnDeviceState := by
  intro s t i m p n hb hw hi h
  change ∃ m' p' n', exec i (s.withDevice m p n) = .next (t.withDevice m' p' n')
  by_cases hs : s.fault = .none
  · have hchecks := checksOf_withDevice m p n i s
    cases hc : checksOf i s with
    | some c =>
      cases (exec_of_checksOf_eq_some hs hc).symm.trans h
      exact ⟨m, p, n, exec_of_checksOf_eq_some hs (hchecks.trans hc)⟩
    | none =>
      obtain ⟨r, u, hu, hbody⟩ := bodyOf_completes hb hw hc
      cases (exec_of_bodyOf_done hs hc hbody).symm.trans h
      obtain ⟨m', p', n', hu'⟩ := hu.withDevice m p n hi
      exact ⟨m', p', n', exec_of_bodyOf_done (s := s.withDevice m p n) hs (hchecks.trans hc) (hu'.bodyOf_eq hw)⟩
  · cases (exec_of_halted hs).symm.trans h
    exact ⟨m, p, n, exec_of_halted hs⟩

end Sys2Proof.Machine
end

section
/-! PROOF. The command sequencer's operations (42 R150 to R158): the one completion that `UNLOCK`, `LOCK` and `ERASE` share, the
state each leaves, and what a later `WRITE` or `READ` finds on the device (42 R159, R160). -/

namespace Sys2Proof.Machine

variable {s : State} {a : Addr} {d : Byte} {da : Nat} {c : CommandName}

/-- The operation that issues a command. -/
def instrOf : CommandName → Instr
  | .unlock => .unlock
  | .lock => .lock
  | .erase => .erase

@[simp] theorem checksOf_instrOf (c : CommandName) : checksOf (instrOf c) = commandChecks := by cases c <;> rfl

/-- Each command is issued with its own list and its own settle delay. -/
theorem bodyOf_instrOf (c : CommandName) (s : State) :
    bodyOf (instrOf c) s = issueSequence c (sequenceOf s.cfg c) (settleOf s.cfg c) s := by cases c <;> rfl

theorem commandChecks_eq_none (hm : s.mode = .write) (hb : s.NotBusy) : commandChecks s = none := by
  refine firstFault_of_forall_eq_false ?_
  simp only [List.forall_mem_cons]
  exact ⟨modeCheck_of_mode hm, hb, nofun⟩

theorem exec_instrOf (c : CommandName) (hw : s.cfg.wellFormed = true) (hs : s.fault = .none) (hr : s.WriteReady)
    (hb : s.NotBusy) : exec (instrOf c) s = .next (complete .ok (s.commanded c)) :=
  exec_of_bodyOf_done hs (by rw [checksOf_instrOf, commandChecks_eq_none hr.1 hb])
    (by rw [bodyOf_instrOf, issueSequence_done c hw hr])

/-- A command with last pair `p` leaves `p` on the bus and in the latches (42 R150). -/
theorem commanded_of_getLast? {p : Addr × Byte} (hp : (sequenceOf s.cfg c).getLast? = some p) :
    s.commanded c = devCommand c { s with
      dout := p.2
      latM := some (addrHigh p.1)
      latL := some (addrLow p.1)
      trace := s.trace ++ sequenceTrace c (sequenceOf s.cfg c) (settleOf s.cfg c) } := by
  simp only [State.commanded, hp, Option.map_some, Option.getD_some]

/-- Settles O30, by `exec_instrOf` and the protection that the device takes from `UNLOCK`. -/
theorem unlockCompletes : Obligations.UnlockCompletes := by
  intro s p hw hs hr hb hp
  exact (exec_instrOf .unlock hw hs hr hb).trans (by rw [commanded_of_getLast? (c := .unlock) hp]; rfl)

/-- Settles O31, by `exec_instrOf` and the protection that the device takes from `LOCK`. -/
theorem lockCompletes : Obligations.LockCompletes := by
  intro s p hw hs hr hb hp
  exact (exec_instrOf .lock hw hs hr hb).trans (by rw [commanded_of_getLast? (c := .lock) hp]; rfl)

theorem sdpAfterErase_of_unchanged (h : s.cfg.sdpAfterErase = .unchanged) : sdpAfterErase s = s.sdp := by
  simp only [sdpAfterErase, h]

theorem drawsAfterErase_of_unchanged (h : s.cfg.sdpAfterErase = .unchanged) : drawsAfterErase s = s.draws := by
  simp only [drawsAfterErase, h]

theorem sdpAfterErase_of_draw (h : s.cfg.sdpAfterErase = .draw) :
    sdpAfterErase s = some .isProtected ∨ sdpAfterErase s = some .isUnprotected := by
  simp only [sdpAfterErase, h]
  exact ite_eq_or_eq _ _ _

theorem commanded_erase_read {b : Nat} (hlt : b < s.cfg.devSize) :
    Memory.read b (s.commanded .erase).mem = some 0xFF#8 :=
  (Memory.read_fill _ _ b).trans (if_pos hlt)

/-- Settles O32: the cells are those of `commanded_erase_read`, the protection state that of `sdpAfterErase`. -/
theorem eraseCompletes : Obligations.EraseCompletes := by
  intro s p hw hs hr hb hp
  refine ⟨(s.commanded .erase).mem, sdpAfterErase s, drawsAfterErase s, ?_, fun _ => commanded_erase_read,
    fun h => ⟨sdpAfterErase_of_unchanged h, drawsAfterErase_of_unchanged h⟩, sdpAfterErase_of_draw⟩
  exact (exec_instrOf .erase hw hs hr hb).trans (by rw [commanded_of_getLast? (c := .erase) hp]; rfl)

/-- Settles O33: a delay has no checks of its own, and its body is the one sleep. -/
theorem delayCompletesInEveryMode : Obligations.DelayCompletesInEveryMode :=
  fun s n hs => exec_of_bodyOf_done (u := endWriteCycle n.toNat (sleepMs n.toNat s)) hs rfl rfl

/-- In `s` a command and `WRITE a, d` both pass their checks, and `a` is the device's cell `da`. -/
structure State.TakesWrite (s : State) (a : Addr) (d : Byte) (da : Nat) : Prop where
  wellFormed : s.cfg.wellFormed = true
  running : s.fault = .none
  ready : s.WriteReady
  notBusy : s.NotBusy
  cell : s.CellAt a da
  notGuarded : s.NotGuarded a d

theorem State.TakesWrite.exec_write (h : s.TakesWrite a d da) :
    exec (.write a d) s = .next (complete .ok (s.written a da d)) :=
  Machine.exec_write h.running h.ready h.cell h.notBusy h.notGuarded

theorem State.TakesWrite.exec_instrOf (h : s.TakesWrite a d da) (c : CommandName) :
    exec (instrOf c) s = .next (complete .ok (s.commanded c)) :=
  Machine.exec_instrOf c h.wellFormed h.running h.ready h.notBusy

theorem written_mem_of_protected (h : s.sdp = some .isProtected) : (s.written a da d).mem = s.mem :=
  memAfterWrite_of_protected h

/-- After a command the device is not busy. -/
theorem commanded_notBusy (c : CommandName) (s : State) : (s.commanded c).NotBusy := by
  cases c <;> exact Bool.and_false _

/-- A command leaves the block ready for what it was ready for. -/
theorem State.TakesWrite.after_command (h : s.TakesWrite a d da) (c : CommandName) :
    (complete .ok (s.commanded c)).TakesWrite a d da where
  wellFormed := by cases c <;> exact h.wellFormed
  running := by cases c <;> exact h.running
  ready := by cases c <;> exact h.ready
  notBusy := commanded_notBusy c s
  cell := by cases c <;> exact h.cell
  notGuarded := by cases c <;> exact h.notGuarded

/-- Settles O39: the block takes the `WRITE` after each command, and the device's protection is that of the last command. -/
theorem protectionFollowsLockAndUnlock : Obligations.ProtectionFollowsLockAndUnlock := by
  intro s a d da hw hr hs hstrict ha hg
  have hnotBusy : s.NotBusy := by rw [State.NotBusy, hstrict, Bool.false_and]
  have h : s.TakesWrite a d da := ⟨hw, hs, hr, hnotBusy, ha, notGuarded_of_not_spellsCommand hg⟩
  have hlocked := h.after_command .lock
  have hunlocked := h.after_command .unlock
  have hrelocked := hunlocked.after_command .lock
  refine ⟨⟨_, _, h.exec_instrOf .lock, hlocked.exec_write, ?_, hlocked.running⟩,
    ⟨_, _, h.exec_instrOf .unlock, hunlocked.exec_write, ?_, hunlocked.running⟩,
    ⟨_, _, _, h.exec_instrOf .unlock, hunlocked.exec_instrOf .lock, hrelocked.exec_write, ?_, hrelocked.running⟩⟩
  · exact (complete_mem _ _).trans (written_mem_of_protected rfl)
  · rw [complete_mem, written_mem_of_unprotected rfl, Memory.read_write_same]
  · exact (complete_mem _ _).trans (written_mem_of_protected rfl)

/-- Settles O40: `ERASE` leaves the device idle with every cell `0xFF`, `CFG_READ` leaves it alone, and `READ` answers a known
cell. -/
theorem erasedDeviceReadsFF : Obligations.ErasedDeviceReadsFF := by
  intro s hw hr hs hb
  refine ⟨_, _, exec_instrOf .erase hw hs hr hb, exec_of_bodyOf_done hs rfl (bodyOf_cfgRead _), fun a ha => ?_⟩
  refine ⟨_, exec_read_of_known hs ⟨rfl, rfl, rfl, rfl, rfl, rfl⟩ (devaddr_of_lt ha) (commanded_notBusy .erase s)
    (commanded_erase_read ha), ?_⟩
  simp [State.sampled, State.switched, State.commanded, devCommand]

end Sys2Proof.Machine
end

section
/-! PROOF. The checks of an operation (60 R172, R178 to R183): they give the code that `firstFailing` says, and from the bus
invariant a running block faults with no other, so the reasons for a fault can be read off `firstFailing` alone. -/

namespace Sys2Proof.Machine

variable {s t : State} {i : Instr}

section

variable {a : Addr} {d : Byte}

theorem modeCheck_fails_iff {m : Mode} : (modeCheck m s).1 = true ↔ s.mode ≠ m := by
  rw [modeCheck, bne_iff_ne]

theorem rangeCheck_fails_iff : (rangeCheck a s).1 = true ↔ s.cfg.devSize ≤ a.toNat ∧ s.cfg.oorPolicy = .fault := by
  rw [rangeCheck, outOfRange, Bool.and_eq_true, decide_eq_true_iff, beq_iff_eq]

theorem busyCheck_fails_iff : (busyCheck s).1 = true ↔ s.cfg.strictWriteCycle = true ∧ s.busy = true := by
  rw [busyCheck, Bool.and_eq_true]

theorem prefixCheck_fails_iff : (prefixCheck a d s).1 = true ↔ s.cfg.cmdPrefixGuard = true ∧ s.SpellsCommand a d := by
  rw [prefixCheck, Bool.and_eq_true, isCommandHead_iff_spellsCommand]

end

theorem getD_firstFault_cons (p : Bool × FaultCode) (l : List (Bool × FaultCode)) :
    (firstFault (p :: l)).getD .none = if p.1 = true then p.2 else (firstFault l).getD .none := by
  obtain ⟨b, c⟩ := p
  cases b <;> rfl

/-- The model's lists of checks give the code of the first check of 60 R172 that fails. -/
theorem getD_checksOf (i : Instr) (s : State) : (checksOf i s).getD .none = firstFailing s i := by
  cases i with
  | cfgWrite | cfgRead | delayMs => rfl
  | write a d =>
    simp only [checksOf, writeChecks, getD_firstFault_cons, modeCheck_fails_iff, rangeCheck_fails_iff, busyCheck_fails_iff,
      prefixCheck_fails_iff]
    rfl
  | read a =>
    simp only [checksOf, readChecks, getD_firstFault_cons, modeCheck_fails_iff, rangeCheck_fails_iff, busyCheck_fails_iff]
    rfl
  | unlock | lock | erase =>
    simp only [checksOf, commandChecks, getD_firstFault_cons, modeCheck_fails_iff, busyCheck_fails_iff]
    rfl

theorem firstFailing_of_checksOf_eq_some {c : FaultCode} (h : checksOf i s = some c) : firstFailing s i = c := by
  rw [← getD_checksOf, h, Option.getD_some]

theorem firstFailing_of_checksOf_eq_none (h : checksOf i s = none) : firstFailing s i = .none := by
  rw [← getD_checksOf, h, Option.getD_none]

/-- What a code tells of the state and the operation whose checks give it. -/
inductive State.Fails (s : State) : Instr → FaultCode → Prop
  | none {i : Instr} : s.Fails i .none
  | mode {i : Instr} {m : Mode} (wrong : s.mode ≠ m) : s.Fails i .modeViolation
  | range {i : Instr} (policy : s.cfg.oorPolicy = .fault) : s.Fails i .addressOutOfRange
  | busy {i : Instr} (strict : s.cfg.strictWriteCycle = true) : s.Fails i .deviceBusy
  | cmdPrefix {a : Addr} {d : Byte} (guarded : s.cfg.cmdPrefixGuard = true ∧ s.SpellsCommand a d) :
      s.Fails (.write a d) .cmdPrefix

theorem fails_firstFailing (s : State) (i : Instr) : s.Fails i (firstFailing s i) := by
  cases i with
  | cfgWrite | cfgRead | delayMs => exact .none
  | write a d =>
    simp only [firstFailing]
    split_ifs with hm hr hb hg
    exacts [.mode hm, .range hr.2, .busy hb.1, .cmdPrefix hg, .none]
  | read a =>
    simp only [firstFailing]
    split_ifs with hm hr hb
    exacts [.mode hm, .range hr.2, .busy hb.1, .none]
  | unlock | lock | erase =>
    simp only [firstFailing]
    split_ifs with hm hb
    exacts [.mode hm, .busy hb.1, .none]

theorem fails_of_firstFailing_eq {c : FaultCode} (h : firstFailing s i = c) : s.Fails i c :=
  h ▸ fails_firstFailing s i

/-- A check that fails makes the entry of 60 R174 and nothing else. -/
theorem exec_of_firstFailing {c : FaultCode} (hs : s.fault = .none) (hc : c ≠ .none) (h : firstFailing s i = c) :
    exec i s = .next (faultedBy c i s) := by
  cases hk : checksOf i s with
  | none => exact absurd (h.symm.trans (firstFailing_of_checksOf_eq_none hk)) hc
  | some e =>
    obtain rfl : e = c := (firstFailing_of_checksOf_eq_some hk).symm.trans h
    exact exec_of_checksOf_eq_some hs hk

/-- From any state, the bus invariant or not: the fault after an operation is that of its first failing check, unless a pin
contract was broken. -/
theorem exec_fault (hs : s.fault = .none) (h : exec i s = .next t) : t.fault = firstFailing s i ∨ t.fault = .pinContract := by
  have hfrom := bodyOf_from i s
  rw [exec_eq_operation] at h
  rcases operation_next h with ⟨hf, _⟩ | ⟨_, c, hc, rfl⟩ | ⟨_, hc, r, u, hd, rfl⟩ | ⟨_, _, c, u, hd, rfl⟩
  · exact absurd hs hf
  · exact .inl (firstFailing_of_checksOf_eq_some hc).symm
  · rw [hd] at hfrom
    exact .inl ((hfrom.fault.trans hs).trans (firstFailing_of_checksOf_eq_none hc).symm)
  · rw [hd] at hfrom
    exact .inr hfrom.1

/-- A code that no check gives is not the fault after an operation. -/
theorem exec_fault_ne {c : FaultCode} (hs : s.fault = .none) (hpin : c ≠ .pinContract) (hc : ¬s.Fails i c)
    (h : exec i s = .next t) : t.fault ≠ c := by
  rintro rfl
  exact (exec_fault hs h).elim (fun ht => hc (fails_of_firstFailing_eq ht.symm)) hpin

/-- From the bus invariant no pin contract is broken (40 R107), so the fault after an operation is that of its checks. -/
theorem exec_fault_of_busInv (hb : s.BusInv) (hs : s.fault = .none) (h : exec i s = .next t) :
    t.fault = firstFailing s i := by
  refine (exec_fault hs h).resolve_right fun hpin => ?_
  rcases exec_next_ready hb h with ⟨hf, _⟩ | ⟨_, c, rfl, hc⟩ | ⟨_, r, u, hu, rfl⟩
  · exact hf hs
  · have hc : checksOf i s = some c := by
      cases i with
      | cfgWrite | cfgRead | delayMs => exact hc.elim
      | write | read | unlock | lock | erase => exact hc
    exact (checksOf_code hc).2 hpin
  · exact absurd ((hu.fault.trans hs).symm.trans hpin) nofun

/-- Settles O10: the mode check comes first in `firstFailing`. -/
theorem wrongModeRaisesModeViolation : Obligations.WrongModeRaisesModeViolation := by
  intro s hs
  refine ⟨fun hm => ⟨fun a d => ?_, ?_, ?_, ?_⟩, fun hm a => ?_⟩
  all_goals exact exec_of_firstFailing hs nofun (if_pos hm)

/-- Settles O11: in the right mode the range check is the next, and it fails under `OOR_POLICY = Fault` only. -/
theorem addressOutOfRangeFaults : Obligations.AddressOutOfRangeFaults := by
  refine ⟨fun s a d hs ha hp => ⟨fun hm => ?_, fun hm => ?_⟩, fun s t i hs hp => ?_, fun c a => devaddr_of_aliased⟩
  · exact exec_of_firstFailing hs nofun ((if_neg (not_not.mpr hm)).trans (if_pos ⟨ha, hp⟩))
  · exact exec_of_firstFailing hs nofun ((if_neg (not_not.mpr hm)).trans (if_pos ⟨ha, hp⟩))
  · exact exec_fault_ne hs nofun fun | .range policy => nomatch hp.symm.trans policy

/-- Settles O12: the busy check follows the mode check and, where there is one, the range check; it fails in strict mode only. -/
theorem busyDeviceFaultsInStrictMode : Obligations.BusyDeviceFaultsInStrictMode := by
  refine ⟨fun s a d hs hstrict hbusy => ?_, fun s t i hs hlax => ?_⟩
  · have hb := And.intro hstrict hbusy
    refine ⟨fun hm => ⟨fun hr => ?_, ?_, ?_, ?_⟩, fun hm hr => ?_⟩
    · exact exec_of_firstFailing hs nofun ((if_neg (not_not.mpr hm)).trans ((if_neg hr).trans (if_pos hb)))
    iterate 3 exact exec_of_firstFailing hs nofun ((if_neg (not_not.mpr hm)).trans (if_pos hb))
    · exact exec_of_firstFailing hs nofun ((if_neg (not_not.mpr hm)).trans ((if_neg hr).trans (if_pos hb)))
  · exact exec_fault_ne hs nofun fun | .busy strict => nomatch hlax.symm.trans strict

/-- Settles O13: the `CMD_PREFIX` check is the last of a `WRITE`, and no other operation makes it. -/
theorem commandPrefixIsGuarded : Obligations.CommandPrefixIsGuarded := by
  refine ⟨fun s a d hs hm hr hb hguard hspells => ?_, fun s t a d hs hfree => ?_, fun s t i hs hi => ?_⟩
  · exact exec_of_firstFailing hs nofun
      ((if_neg (not_not.mpr hm)).trans ((if_neg hr).trans ((if_neg hb).trans (if_pos ⟨hguard, hspells⟩))))
  · exact exec_fault_ne hs nofun fun | .cmdPrefix guarded => hfree guarded
  · exact exec_fault_ne hs nofun fun | .cmdPrefix _ => hi _ _ rfl

theorem pWrite_of_input (v : Byte) (h : s.ddir = .input) : pWrite v s = .raised .pinContract s := by
  simp [pWrite, h]

theorem pRead_of_output (h : s.ddir = .output) : pRead s = .raised .pinContract s := by
  simp [pRead, h]

/-- Settles O17: a halted block keeps its fault, and a running one takes that of its checks, which is never `PIN_CONTRACT`. -/
theorem pinContractIsNeverReached : Obligations.PinContractIsNeverReached := by
  refine ⟨fun s => pWrite_of_input, fun s => pRead_of_output, fun s t i hb hs h ht => ?_⟩
  by_cases hf : s.fault = .none
  · exact nomatch fails_of_firstFailing_eq ((exec_fault_of_busInv hb hf h).symm.trans ht)
  · cases (exec_of_halted hf).symm.trans h
    exact hs ht

end Sys2Proof.Machine
end

section
/-! PROOF. What an issued word does to a halted block and the fault it gives a running one (60 R172 to R176, R178). -/

namespace Sys2Proof.Machine

variable {s t : State} {w : Word} {rest : List HostInput}

theorem step_of_pending_eq_op (h : s.pending = .op w :: rest) : step s = issueWord w { s with pending := rest } :=
  step_of_pending_eq_cons h

theorem issueWord_of_halted (w : Word) (hs : s.fault ≠ .none) : issueWord w s = .next (s.respond .refused) := by
  cases hd : decode w with
  | none => rw [issueWord_of_decode_eq_none hd, execIllegal_eq, if_neg hs]
  | some i => rw [issueWord_of_decode_eq_some hd, exec_of_halted hs]

/-- The fault a word gives a running block: `ILLEGAL_OP`, or that of the first check its operation fails (60 R172). -/
def wordFault (s : State) (w : Word) : FaultCode :=
  match decode w with
  | none => .illegalOp
  | some i => firstFailing s i

theorem wordFault_of_decode_eq_none (s : State) (h : decode w = none) : wordFault s w = .illegalOp := by
  simp only [wordFault, h]

theorem wordFault_of_decode_eq_some {i : Instr} (s : State) (h : decode w = some i) : wordFault s w = firstFailing s i := by
  simp only [wordFault, h]

/-- The checks do not look at the words still to be issued. -/
theorem wordFault_with_pending (s : State) (rest : List HostInput) (w : Word) :
    wordFault { s with pending := rest } w = wordFault s w := by
  cases hd : decode w with
  | none => rw [wordFault_of_decode_eq_none _ hd, wordFault_of_decode_eq_none _ hd]
  | some i =>
    rw [wordFault_of_decode_eq_some _ hd, wordFault_of_decode_eq_some _ hd]
    cases i <;> rfl

/-- Faults are precise (60 R173): a word that faults makes the entry of 60 R174 and nothing else. -/
theorem issueWord_fault (hb : s.BusInv) (hs : s.fault = .none) (h : issueWord w s = .next t) :
    t.fault = wordFault s w ∧ (t.fault ≠ .none → t = raiseFault t.fault w s) := by
  cases hd : decode w with
  | none =>
    rw [issueWord_of_decode_eq_none hd, execIllegal_eq, if_pos hs] at h
    cases h
    exact ⟨(wordFault_of_decode_eq_none s hd).symm, fun _ => rfl⟩
  | some i =>
    rw [issueWord_of_decode_eq_some hd] at h
    rw [wordFault_of_decode_eq_some s hd]
    have hfault := exec_fault_of_busInv hb hs h
    refine ⟨hfault, fun hne => ?_⟩
    obtain rfl := encode_of_decode hd
    exact Host.Outcome.next.inj (h.symm.trans (exec_of_firstFailing hs hne hfault.symm))

theorem step_fault (hb : s.BusInv) (hs : s.fault = .none) (hp : s.pending = .op w :: rest) (h : step s = .next t) :
    t.fault = wordFault s w ∧ (t.fault ≠ .none → t = raiseFault t.fault w { s with pending := rest }) := by
  rw [step_of_pending_eq_op hp] at h
  rw [← wordFault_with_pending s rest w]
  exact issueWord_fault (s := { s with pending := rest }) hb hs h

/-- Settles O8: `execIllegal` makes the entry of a fault, and never looks at the mode. -/
theorem illegalWordRaisesIllegalOp : Obligations.IllegalWordRaisesIllegalOp := by
  intro s w rest hp hs hd
  rw [step_of_pending_eq_op hp, issueWord_of_decode_eq_none hd, execIllegal_eq, if_pos hs]
  rfl

/-- Settles O9: the halt check comes first, whatever the word spells. -/
theorem haltedBlockRefusesEveryWord : Obligations.HaltedBlockRefusesEveryWord := fun s w rest hp hs =>
  (step_of_pending_eq_op hp).trans (issueWord_of_halted (s := { s with pending := rest }) w hs)

/-- Settles O14: a halted block by O9, a running one by the fault of the word. -/
theorem checksAreMadeInOrder : Obligations.ChecksAreMadeInOrder := by
  intro s t w rest hb hp h
  split
  · next hs =>
    cases (haltedBlockRefusesEveryWord s w rest hp hs).symm.trans h
    exact ⟨rfl, rfl⟩
  · next hs =>
    obtain ⟨hfault, hentry⟩ := step_fault hb (not_not.mp hs) hp h
    exact ⟨hfault, fun hne => congrArg State.responses (hentry hne)⟩

/-- Settles O15: the entry of `step_fault`, written out. -/
theorem faultEntryChangesNothingElse : Obligations.FaultEntryChangesNothingElse :=
  fun _ _ _ _ hb hs hp h => (step_fault hb hs hp h).2

/-- Settles O16: the step of a halted block refuses a word, by O9, or resets the controller. -/
theorem onlyAResetClearsAFault : Obligations.OnlyAResetClearsAFault := by
  intro s t hs h
  rcases step_next h with ⟨w, rest, hp, _⟩ | ⟨rest, hp, _⟩
  · cases (haltedBlockRefusesEveryWord s w rest hp hs).symm.trans h
    exact ⟨fun _ => ⟨rfl, rfl, rfl⟩, fun ht => absurd ht hs⟩
  · exact ⟨fun hno => absurd hp (hno rest), fun _ => ⟨rest, hp⟩⟩

end Sys2Proof.Machine
end

section
/-! PROOF. No step writes the parameters (70 R203): a word answers as `State.Replies` says, and a controller reset keeps them. -/

namespace Sys2Proof.Machine

theorem State.Replies.cfg {s t : State} {o : Option Instr} {r : Response} (h : s.Replies o r t) : t.cfg = s.cfg := by
  cases h with
  | refused halted => rfl
  | faulted running real within => exact within.cfg
  | completed running decoded returns within => exact within.cfg

/-- Settles O45: a step answers a word, by `State.Replies.cfg`, or resets the controller. -/
theorem parametersNeverChange : Obligations.ParametersNeverChange := by
  intro s t h
  rcases step_next h with ⟨w, rest, _, hword⟩ | ⟨rest, _, rfl⟩
  · obtain ⟨r, hr⟩ := issueWord_replies hword
    exact hr.cfg
  · exact (controllerReset_keeps _).1

end Sys2Proof.Machine
end

section
/-! PROOF. The delay content of a trace (70 R218): its three counts add up over consecutive pieces, so a command's counts are those
of its pairs, nine events each, and of its settle delay. -/

namespace Sys2Proof.Machine

theorem nopCount_append (t t' : List TraceItem) : nopCount (t ++ t') = nopCount t + nopCount t' := by
  fun_induction nopCount t with
  | case1 => exact (Nat.zero_add _).symm
  | case2 n t ih => rw [List.cons_append, nopCount, ih, Nat.add_assoc]
  | case3 x t hx ih => rw [List.cons_append, nopCount, ih]; exact hx

theorem sleepCount_append (t t' : List TraceItem) : sleepCount (t ++ t') = sleepCount t + sleepCount t' := by
  fun_induction sleepCount t with
  | case1 => exact (Nat.zero_add _).symm
  | case2 n t ih => rw [List.cons_append, sleepCount, ih, Nat.add_assoc]
  | case3 x t hx ih => rw [List.cons_append, sleepCount, ih]; exact hx

theorem eventCount_append (t t' : List TraceItem) : eventCount (t ++ t') = eventCount t + eventCount t' := by
  rw [eventCount, List.filter_append, List.length_append]
  rfl

/-- The three counts of 70 R218 of a trace: no-op cycles, milliseconds, events. -/
def delayCounts (t : List TraceItem) : Nat × Nat × Nat := (nopCount t, sleepCount t, eventCount t)

theorem delayCounts_append (t t' : List TraceItem) : delayCounts (t ++ t') = delayCounts t + delayCounts t' := by
  simp only [delayCounts, nopCount_append, sleepCount_append, eventCount_append, Prod.mk_add_mk]

theorem delayCounts_commandTrace (a : Addr) (d : Byte) : delayCounts (commandTrace a d) = (0, 0, 9) := rfl

/-- The write cycles of a command wait for nothing (42 R150). -/
theorem delayCounts_pairs (l : CommandList) :
    delayCounts (l.map fun p => commandTrace p.1 p.2).flatten = (0, 0, 9 * l.length) := by
  induction l with
  | nil => rfl
  | cons p l ih =>
    rw [List.map_cons, List.flatten_cons, delayCounts_append, ih, delayCounts_commandTrace, Prod.mk_add_mk, Prod.mk_add_mk,
      List.length_cons, Nat.mul_succ, Nat.add_comm 9]

theorem delayCounts_sequenceTrace (c : CommandName) (l : CommandList) (n : Nat) :
    delayCounts (sequenceTrace c l n) = (0, n, 9 * l.length + 1) := by
  have hsettle : delayCounts [.event (.sleepMs n), .reaction (.devCmd c)] = (0, n, 1) := rfl
  rw [sequenceTrace, delayCounts_append, delayCounts_pairs, hsettle, Prod.mk_add_mk, Prod.mk_add_mk, Nat.zero_add, Nat.zero_add]

theorem commanded_trace (c : CommandName) (s : State) :
    (s.commanded c).trace = s.trace ++ sequenceTrace c (sequenceOf s.cfg c) (settleOf s.cfg c) := by
  cases c <;> rfl

/-- The events a completed operation adds to the trace have the counts of 70 R218. -/
theorem State.Completes.delayCounts_new {s u : State} {i : Instr} {r : Response} (h : s.Completes i r u) :
    ∃ new, u.trace = s.trace ++ new ∧ delayCounts new = delayContent s.cfg i := by
  cases h with
  | cfgWrite => exact ⟨modeSwitchTrace .output, rfl, rfl⟩
  | cfgRead => exact ⟨modeSwitchTrace .input, rfl, rfl⟩
  | @write a d da ready cell => exact ⟨writeTrace a da d, rfl, rfl⟩
  | @read a da ready cell => exact ⟨readTrace a da s.cfg.readSettleNops (memReadByte da s), rfl, rfl⟩
  | unlock => exact ⟨_, commanded_trace .unlock s, delayCounts_sequenceTrace _ _ _⟩
  | lock => exact ⟨_, commanded_trace .lock s, delayCounts_sequenceTrace _ _ _⟩
  | erase => exact ⟨_, commanded_trace .erase s, delayCounts_sequenceTrace _ _ _⟩
  | delayMs n => exact ⟨[.event (.sleepMs n.toNat)], rfl, rfl⟩

/-- Settles O36: without a fault the operation has completed, and `State.Completes.delayCounts_new` counts its events. -/
theorem delayContentOfEachOperation : Obligations.DelayContentOfEachOperation := by
  intro s t i hb hw hs h ht
  obtain ⟨r, u, hu, rfl⟩ := exec_completes hb hw hs ht h
  exact hu.delayCounts_new

end Sys2Proof.Machine
end
